-- ==== Sys2Proof/Word.lean ====
section
/-! DEFINITION. The words of the block: a byte, a 32-bit register word, a timestamp and a port offset (R7, R16, R17). -/

namespace Sys2Proof

/-- An 8-bit unsigned value in [0,255] (R7). -/
abbrev Byte := BitVec 8

/-- A 32-bit word: one register, one host access (R7, R16). -/
abbrev Word := BitVec 32

/-- A `TS_WIDTH` = 64 bit unsigned count of ticks (R5, R17). -/
abbrev Timestamp := BitVec 64

/-- A 14-bit byte offset into the host register space (R16, R42). -/
abbrev Offset := BitVec 14

end Sys2Proof
end

