-- ==== Sys2Proof/Syntax.lean ====
section
/-! DEFINITION. What the three agents can present to the machine: the ten commands (R68), the registers of the map
(R47), the host's transactions and program notation (R16, R73, R74), and the moves of the environment (R11). -/

namespace Sys2Proof

/-- The ten commands, one constructor per row of the opcode table (R68). A command word carries no operand (R67). -/
inductive Instr where
  | encode
  | scan
  | release
  | refresh
  | sendMessage
  | newMessage
  | transmit
  | listen
  | listenMessage
  | getMessage
deriving DecidableEq, Repr

/-- The registers of the map (R47). An array element carries its index; `Reg.wellFormed` bounds it (R48). -/
inductive Reg where
  | cmd
  | status
  | argId
  | argWin
  | plLen
  | resStat
  | resId
  | resLen
  | tokDlLo
  | tokDlHi
  | inLen
  | outLen
  | capPl
  | capIn
  | capRes
  | plData (i : Nat)
  | resBuf (i : Nat)
deriving DecidableEq, Repr

/-- One transaction on the host register port: its size in bytes, its offset and, for a write, the value (R16).
Sizes other than 4 can be presented; they are bad accesses (R45, R52). -/
inductive Access where
  | read (size : Nat) (off : Offset)
  | write (size : Nat) (off : Offset) (v : Word)
deriving DecidableEq, Repr, Inhabited

/-- One element of the host's program: a transaction, or the `wait` loop of R74, which reads `STATUS` until bit 0 of
the value read is 0. -/
inductive HostOp where
  | access (a : Access)
  | wait
deriving DecidableEq, Repr, Inhabited

/-- One line of a host program in the notation of R73 and R74. -/
inductive AsmLine where
  | wr (r : Reg) (v : Int)
  | rd (r : Reg)
  | command (i : Instr)
  | wait
  | ldpl (vs : List Int)
  | clr
deriving DecidableEq, Repr

/-- The transport's answer to a `TxWrite`: ok or fault (R19), and how many of the bytes handed over reach the wire
(`none` is all of them; R19 and spec/93 leave the part open after either answer). -/
structure TxReply where
  ok   : Bool
  sent : Option Nat
deriving DecidableEq, Repr, Inhabited

/-- The moves of the environment (R11): the clock input (R17), the transport (R19) and the reset input (R18). -/
inductive EnvMove where
  /-- The clock input takes the value `t`, which may be smaller than before (R17). -/
  | clock (t : Timestamp)
  /-- The peer's bytes arrive at the end of the transport's receive queue (R11, R61). -/
  | receive (bs : List Byte)
  /-- What `RxWaiting()` answers from now on: `none` is the length of the queue, the transport's contract (R19).
  `some n` is a transport that reports `n` whatever it holds (spec/93 section 3). -/
  | report (r : Option Nat)
  /-- How the transport answers a `TxWrite` from now on (R19). -/
  | reply (r : TxReply)
  /-- The reset input is asserted, between transactions (R18, R120). -/
  | assertReset
  /-- The reset input is released (R119). -/
  | releaseReset
  /-- Reset asserted inside a host transaction, which the spec does not define (R120). -/
  | resetInTransaction
deriving DecidableEq, Repr, Inhabited

/-- Which agent moves next (R11). -/
inductive Turn where
  | host
  | block
  | env (m : EnvMove)
deriving DecidableEq, Repr, Inhabited

end Sys2Proof
end

