-- ==== Sys2Proof/Config.lean ====
section
/-! DEFINITION. The implementation parameters of R5 at this hardware's values, the parameters the spec leaves OPEN, and
the free values of the interleaving. -/

namespace Sys2Proof.Config

/-- `PL_CAP`: payload staging capacity, in elements (R5). -/
abbrev plCap : Nat := 256

/-- `OUT_CAP`: outbound buffer capacity, in bytes (R5). -/
abbrev outCap : Nat := 265

/-- `IN_CAP`: inbound buffer capacity, in bytes (R5). -/
abbrev inCap : Nat := 1024

/-- `LAST_CAP`: last-message payload capacity, in bytes (R5). -/
abbrev lastCap : Nat := 1017

/-- `RES_CAP`: result buffer capacity, in bytes (R5). -/
abbrev resCap : Nat := 1024

/-- `TS_WIDTH`: width of `now` and of the deadline, in bits (R5). -/
abbrev tsWidth : Nat := 64

/-- `END_MIN`: body bytes before the END window is compared (R5; 4 by R6 and conflict C1). -/
abbrev endMin : Nat := 4

/-- `BASE`: where the register space sits in a system map (R42, OPEN). No rule uses it. -/
opaque base : Nat

/-- `TICK_PERIOD`: real time of one timestamp unit (R5, OPEN). No rule uses it. -/
opaque tickPeriod : Nat

/-- FREE VALUE: which agent takes the step that State's schedule does not list (R11, R56). Nothing constrains it. -/
opaque freeTurn : Nat → Turn

/-- FREE VALUE: the transaction of a host whose program State does not list (R40). Nothing constrains it. -/
opaque freeAccess : Nat → Access

end Sys2Proof.Config
end

