-- ==== Sys2Proof/WellFormed.lean ====
section
/-! DEFINITION. Which terms are well formed: commands, command words (R67 to R69), registers (R48), host accesses (R45)
and parameter sets (R6). -/

namespace Sys2Proof

/-- A command word is legal: `OP` in 0x01 to 0x0A and `RSV` zero (R67, R69). -/
def legalCommandWord (w : Word) : Bool :=
  decide (w.extractLsb' 8 24 = 0#24) && decide (1 ≤ (w.extractLsb' 0 8).toNat) &&
    decide ((w.extractLsb' 0 8).toNat ≤ 10)

/-- A register of the map is well formed: an array index lies below its capacity (R48). -/
def Reg.wellFormed : Reg → Bool
  | .plData i => decide (i < Config.plCap)
  | .resBuf i => decide (i < Config.resCap)
  | _ => true

/-- A host access is well formed only if its size is 4 bytes and `off[1:0] = 0` (R45). -/
def wellFormedAccess (size : Nat) (off : Offset) : Bool :=
  decide (size = 4) && decide (off.extractLsb' 0 2 = 0#2)

/-- `wellFormedAccess` of a transaction's size and offset. -/
def Access.wellFormed : Access → Bool
  | .read size off => wellFormedAccess size off
  | .write size off _ => wellFormedAccess size off

/-- A line of host notation is well formed: its register exists, and `ldpl` stages at most `PL_CAP` values (R73, R74). -/
def AsmLine.wellFormed : AsmLine → Bool
  | .wr r _ => r.wellFormed
  | .rd r => r.wellFormed
  | .command _ => true
  | .wait => true
  | .ldpl vs => decide (vs.length ≤ Config.plCap)
  | .clr => true

/-- A set of the parameters of R5 that R6 constrains. -/
structure Params where
  plCap   : Nat
  outCap  : Nat
  inCap   : Nat
  lastCap : Nat
  resCap  : Nat
  tsWidth : Nat
  endMin  : Nat
deriving DecidableEq, Repr

/-- The constraints of R6. -/
def Params.wellFormed (p : Params) : Bool :=
  decide (1 ≤ p.plCap ∧ p.plCap ≤ 1024 ∧ p.outCap = p.plCap + 9 ∧ 7 ≤ p.inCap ∧ p.lastCap = p.inCap - 7 ∧
    max p.outCap p.inCap ≤ p.resCap ∧ p.resCap ≤ 1024 ∧ 33 ≤ p.tsWidth ∧ p.tsWidth ≤ 64 ∧ p.endMin = 4)

/-- This hardware's parameters (R5). -/
def Config.params : Params :=
  { plCap := plCap, outCap := outCap, inCap := inCap, lastCap := lastCap, resCap := resCap, tsWidth := tsWidth,
    endMin := endMin }

end Sys2Proof
end

