-- ==== Sys2Proof/Decode.lean ====
section
/-! DEFINITION. The command word (R67 to R69): a total decoder that rejects by name, the encoder, and the opcode table's
numbering of a word's bits. -/

namespace Sys2Proof

/-- Why a command word selects no command (R69). -/
inductive DecodeError where
  /-- Some bit of `w[31:8]` is not 0. -/
  | reservedBits
  /-- `OP = 0x00`. -/
  | zeroOpcode
  /-- `OP` in 0x0B to 0xFF. -/
  | reservedOpcode
deriving DecidableEq, Repr

/-- `OP`, bits 7:0 of a command word (R67). -/
def opField (w : Word) : Byte := w.extractLsb' 0 8

/-- `RSV`, bits 31:8 of a command word (R67). -/
def rsvField (w : Word) : BitVec 24 := w.extractLsb' 8 24

/-- The opcode of a command (R68). -/
def opcode : Instr → Byte
  | .encode => 0x01#8
  | .scan => 0x02#8
  | .release => 0x03#8
  | .refresh => 0x04#8
  | .sendMessage => 0x05#8
  | .newMessage => 0x06#8
  | .transmit => 0x07#8
  | .listen => 0x08#8
  | .listenMessage => 0x09#8
  | .getMessage => 0x0A#8

/-- The command an opcode selects, read from the table of R68. -/
def decodeOp (op : Byte) : Except DecodeError Instr :=
  match op.toNat with
  | 0 => .error .zeroOpcode
  | 1 => .ok .encode
  | 2 => .ok .scan
  | 3 => .ok .release
  | 4 => .ok .refresh
  | 5 => .ok .sendMessage
  | 6 => .ok .newMessage
  | 7 => .ok .transmit
  | 8 => .ok .listen
  | 9 => .ok .listenMessage
  | 10 => .ok .getMessage
  | _ => .error .reservedOpcode

/-- The command a word written to `CMD` selects, or why it is illegal (R68, R69). -/
def decode (w : Word) : Except DecodeError Instr :=
  if rsvField w = 0#24 then decodeOp (opField w) else .error .reservedBits

/-- The word of a command: `OP` in bits 7:0 and `RSV` zero (R67, R68). -/
def encode (i : Instr) : Word := (0#24 ++ opcode i : BitVec 32)

/-- Every command is well formed: a word carries no operand, and its own word is legal (R67). -/
def Instr.wellFormed (i : Instr) : Bool := legalCommandWord (Sys2Proof.encode i)

/-- The command the decoder reads from a word numbered as the opcode table numbers it: a command is one 32-bit word,
and bits above `nbits` are 0. -/
def decodeTableWord (nbits w : Nat) : Option Instr :=
  match decode (BitVec.ofNat 32 (w % 2 ^ nbits)) with
  | .ok i => some i
  | .error _ => none

end Sys2Proof
end

