-- ==== Sys2Proof/Machine/State.lean ====
section
/-! DEFINITION. The state of the block (R22 to R34, R39), the environment's inputs and records that the model carries
beside it (R11, R40), and the reasons a step can stop. -/

namespace Sys2Proof.Machine

/-- The control state (R22). -/
inductive Fsm where
  | idle
  | listen
  | listenMsg
deriving DecidableEq, Repr

/-- The validation codes of `RES_STAT.VAL` (R104). The reserved codes 4 to 15 are never produced and have no name. -/
inductive Verdict where
  | pass
  | badId
  | badWin
  | badPayload
deriving DecidableEq, Repr

/-- The cause codes of `RES_STAT.CAUSE` (R103). The reserved codes 6 to 15 are never produced and have no name. -/
inductive Cause where
  | none
  | validation
  | denied
  | incomplete
  | noMessage
  | txFault
deriving DecidableEq, Repr

/-- The result of the last completed command (R33, R34). -/
structure Result where
  ok    : Bool
  val   : Verdict
  cause : Cause
  op    : Byte
  id    : Byte
  buf   : List Byte
deriving DecidableEq, Repr

/-- The block state: every row of the table of R39. -/
structure Block where
  /-- `fsm` (R22). -/
  fsm     : Fsm
  /-- `tok_held`: true is HELD, false is RELEASED(`tok_dl`) (R23). -/
  tokHeld : Bool
  /-- `tok_dl` (R23). -/
  tokDl   : Timestamp
  /-- `outbuf` (R25). -/
  outBuf  : List Byte
  /-- `inbuf` (R26). -/
  inBuf   : List Byte
  /-- `last_id` (R27). -/
  lastId  : Byte
  /-- `last_pl` (R27). -/
  lastPl  : List Byte
  /-- `ARG_ID` (R28). -/
  argId   : Word
  /-- `ARG_WIN` (R29). -/
  argWin  : Word
  /-- `PL_LEN` (R30). -/
  plLen   : Word
  /-- `PL_DATA` (R30). -/
  plData  : Vector Word Config.plCap
  /-- `STATUS.FATAL` (R31). -/
  fatal   : Bool
  /-- `STATUS.IN_OVF` (R31). -/
  inOvf   : Bool
  /-- `STATUS.BUSERR` (R31). -/
  busErr  : Bool
  /-- `STATUS.CMD_ERR` (R31). -/
  cmdErr  : Bool
  /-- The result registers (R33, R34). -/
  res     : Result
deriving DecidableEq, Repr

/-- One `TxWrite` transaction: the whole sequence handed over and whether the transport answered ok (R19). -/
structure TxRecord where
  seq : List Byte
  ok  : Bool
deriving DecidableEq, Repr

/-- The environment's inputs and what it has seen (R11, R40). None of this is block state. -/
structure Env where
  /-- The clock input `now` (R17). -/
  now           : Timestamp
  /-- The level of the reset input (R18). -/
  resetAsserted : Bool
  /-- The transport's receive queue, oldest byte first (R19). -/
  rxQueue       : List Byte
  /-- What `RxWaiting()` answers: `none` is the queue's length, the contract of R19. -/
  rxReport      : Option Nat
  /-- How the transport answers the next `TxWrite` (R19). -/
  txReply       : TxReply
  /-- The `TxWrite` transactions so far, oldest first (R61). -/
  txLog         : List TxRecord
  /-- The bytes put on the wire so far, first byte first (R43). -/
  wire          : List Byte
  /-- The host's program, next operation first (R11, R73). -/
  hostOps       : List HostOp
  /-- The values the port has returned to the host, oldest first (R16). -/
  hostReads     : List Word
  /-- Which agent takes each of the next steps (R11, R56). -/
  turns         : List Turn
  /-- The model's own: the index of the next free value. -/
  fresh         : Nat
deriving DecidableEq, Repr

/-- The machine: the block, and the environment it is connected to. -/
structure State where
  blk : Block
  env : Env
deriving DecidableEq, Repr

/-- The block has no trap, and no access or command stops it (R52, R105, R108). No step raises a fault. -/
inductive Fault where
deriving DecidableEq, Repr

/-- The reasons a step is refused. -/
inductive Refusal where
  /-- An instruction without a meaning; raised by no arm of `exec`. Safe. -/
  | notModelled (mnemonic : String)
  /-- A release whose deadline `t + d` is at or above `2^TS_WIDTH`: "the model gives the command no meaning: it is
  refused" (R86). Raised by RELEASE, TRANSMIT and SEND_MESSAGE. Safe. -/
  | deadlineOverflow
  /-- `RxRead()` on a transport that reports a byte and has none, outside its contract (R19; spec/93 section 3: refuse).
  Raised by a listen iteration. Safe. -/
  | rxNothingToRead
  /-- Reset asserted inside a host transaction, "not defined" (R120; spec/93 section 3: refuse). Raised by that move of
  the environment. Safe. -/
  | resetInTransaction
deriving DecidableEq, Repr

/-- The result registers after reset (R39). -/
def Result.reset : Result :=
  { ok := false, val := .pass, cause := .none, op := 0x00#8, id := 0x00#8, buf := [] }

/-- The block after reset: the table of R39. -/
def Block.reset : Block :=
  { fsm := .idle, tokHeld := true, tokDl := 0#64, outBuf := [], inBuf := [], lastId := 0x00#8, lastPl := [],
    argId := 0#32, argWin := 0#32, plLen := 0#32, plData := Vector.replicate Config.plCap 0#32,
    fatal := false, inOvf := false, busErr := false, cmdErr := false, res := Result.reset }

/-- The environment of `State.reset`. DESIGN CHOICE: R40 makes it a parameter; these are the values of a vector's start
state in spec/95 ("an empty receive queue and transport writes that answer ok"), with nothing recorded or scheduled. -/
def Env.initial : Env :=
  { now := 0#64, resetAsserted := false, rxQueue := [], rxReport := none, txReply := { ok := true, sent := none },
    txLog := [], wire := [], hostOps := [], hostReads := [], turns := [], fresh := 0 }

/-- The machine right after reset is released (R39, R119). -/
def State.reset : State := { blk := Block.reset, env := Env.initial }

end Sys2Proof.Machine
end

