-- ==== Sys2Proof/Machine/Ops.lean ====
section
/-! DEFINITION. The named updates of the state and the operations the commands share: the result registers (R34),
rejection (R107) and bad accesses (R52), the transport primitives (R19), and the arbiter's transitions (R86, R87). -/

namespace Sys2Proof.Machine

/-! ## Named updates -/

/-- Replace the block state. -/
def State.setBlk (s : State) (b : Block) : State := { s with blk := b }

/-- Replace the environment. -/
def State.setEnv (s : State) (e : Env) : State := { s with env := e }

/-- Set the control state (R22). -/
def Block.setFsm (b : Block) (v : Fsm) : Block := { b with fsm := v }

/-- Set the outbound buffer (R25). -/
def Block.setOutBuf (b : Block) (v : List Byte) : Block := { b with outBuf := v }

/-- Set the inbound buffer (R26). -/
def Block.setInBuf (b : Block) (v : List Byte) : Block := { b with inBuf := v }

/-- Set `ARG_ID` (R28). -/
def Block.setArgId (b : Block) (v : Word) : Block := { b with argId := v }

/-- Set `ARG_WIN` (R29). -/
def Block.setArgWin (b : Block) (v : Word) : Block := { b with argWin := v }

/-- Set `PL_LEN` (R30). -/
def Block.setPlLen (b : Block) (v : Word) : Block := { b with plLen := v }

/-- Set `PL_DATA` (R30). -/
def Block.setPlData (b : Block) (v : Vector Word Config.plCap) : Block := { b with plData := v }

/-- Set `STATUS.FATAL` (R31). -/
def Block.setFatal (b : Block) (v : Bool) : Block := { b with fatal := v }

/-- Set `STATUS.IN_OVF` (R31). -/
def Block.setInOvf (b : Block) (v : Bool) : Block := { b with inOvf := v }

/-- Set `STATUS.BUSERR` (R31). -/
def Block.setBusErr (b : Block) (v : Bool) : Block := { b with busErr := v }

/-- Set `STATUS.CMD_ERR` (R31). -/
def Block.setCmdErr (b : Block) (v : Bool) : Block := { b with cmdErr := v }

/-- Set the result registers (R34). -/
def Block.setRes (b : Block) (v : Result) : Block := { b with res := v }

/-- Set the token pair (R23). -/
def Block.setToken (b : Block) (held : Bool) (dl : Timestamp) : Block := { b with tokHeld := held, tokDl := dl }

/-- Set the last message (R27). -/
def Block.setLast (b : Block) (id : Byte) (pl : List Byte) : Block := { b with lastId := id, lastPl := pl }

/-! ## Results and rejection -/

/-- `result(ok, val, cause, id, buf)` of command `i`: all result registers at once (R34). -/
def Block.result (b : Block) (i : Instr) (ok : Bool) (val : Verdict) (cause : Cause) (id : Byte) (buf : List Byte) :
    Block :=
  b.setRes { ok := ok, val := val, cause := cause, op := opcode i, id := id, buf := buf }

/-- A rejected `CMD` write: `STATUS.CMD_ERR <- 1` and no other effect (R107). -/
def Block.reject (b : Block) : Block := b.setCmdErr true

/-- A bad access: `STATUS.BUSERR <- 1` and no other change (R52). -/
def Block.badAccess (b : Block) : Block := b.setBusErr true

/-! ## Transport primitives -/

/-- `RxWaiting()`: the number of bytes the transport reports as waiting (R19). -/
def Env.rxWaiting (e : Env) : Nat := e.rxReport.getD e.rxQueue.length

/-- `RxRead()`: remove and return the oldest byte of the receive queue (R19). `none` is a transport that has none. -/
def Env.rxRead (e : Env) : Option (Byte × Env) :=
  match e.rxQueue with
  | [] => none
  | x :: rest => some (x, { e with rxQueue := rest })

/-- The bytes of `seq` that reach the wire under a reply: any prefix, first byte first (R43; spec/93 section 1). -/
def onWire (r : TxReply) (seq : List Byte) : List Byte :=
  match r.sent with
  | none => seq
  | some n => seq.take n

/-- `TxWrite(seq)`: hand the whole sequence to the transport in one transaction and return whether it answered ok
(R19). -/
def Env.txWrite (e : Env) (seq : List Byte) : Bool × Env :=
  (e.txReply.ok,
    { e with txLog := e.txLog ++ [{ seq := seq, ok := e.txReply.ok }], wire := e.wire ++ onWire e.txReply seq })

/-- What reading one byte does to an inbound buffer of capacity `cap`: the buffer after it, and whether the byte was
dropped for lack of space (R26, R98). -/
def pushInbound (cap : Nat) (buf : List Byte) (x : Byte) : List Byte × Bool :=
  if buf.length < cap then (buf ++ [x], false) else (buf, true)

/-! ## The arbiter's transitions -/

/-- The deadline `t + d` of a release with `d > 0` exists below `2^TS_WIDTH`; otherwise the command is refused (R86). -/
def deadlineFits (d : Int) (t : Timestamp) : Bool := decide (t.toNat + d.toNat < 2 ^ Config.tsWidth)

/-- `release_fn(d, t)` (R86). `none` is the refused case. -/
def Block.releaseFn (b : Block) (d : Int) (t : Timestamp) : Option Block :=
  if 0 < d then
    if deadlineFits d t then some (b.setToken false (t + BitVec.ofNat Config.tsWidth d.toNat)) else none
  else some b

/-- `refresh_fn(t)`: the token returns when it is released and `t > tok_dl`, compared unsigned (R87). -/
def Block.refreshFn (b : Block) (t : Timestamp) : Block :=
  if b.tokHeld = false ∧ b.tokDl.toNat < t.toNat then b.setToken true b.tokDl else b

end Sys2Proof.Machine
end

