-- ==== Sys2Proof/Machine/Operands.lean ====
section
/-! DEFINITION. Operand assembly (R70): how a command reads `ARG_ID`, `ARG_WIN`, `PL_LEN` and `PL_DATA`, and the two
extensions of R9. -/

namespace Sys2Proof.Machine

/-- `sext_32(v)`: a register read as a two's-complement integer in [-2^31, 2^31-1] (R9). -/
def sext32 (v : Word) : Int := v.toInt

/-- `zext_32(b)`: the word whose low bits hold `b` (R9). -/
def zext32 (b : Byte) : Word := b.setWidth 32

/-- A count as a register value: the lengths and capacities of R34, R36 and R37. -/
def countWord (n : Nat) : Word := BitVec.ofNat 32 n

/-- `id_op` (R70). -/
def Block.idOp (b : Block) : Int := sext32 b.argId

/-- `win_op` (R70). -/
def Block.winOp (b : Block) : Int := sext32 b.argWin

/-- `dur_op`: RELEASE's duration and TRANSMIT's reply window (R70). -/
def Block.durOp (b : Block) : Int := b.winOp

/-- `pl_op`: the first `PL_LEN` payload elements (R30, R70). -/
def Block.plOp (b : Block) : List Int := (b.plData.toList.take b.plLen.toNat).map sext32

/-- A validated operand as the byte it is: "each operand is in range ... with no truncation or scaling" (R70). -/
def operandByte (v : Int) : Byte := BitVec.ofInt 8 v

end Sys2Proof.Machine
end

