-- ==== Sys2Proof/Machine/Flags.lean ====
section
/-! DEFINITION. The status and result words: `STATUS` and its write-1-to-clear bits (R31, R32), `RES_STAT` (R33) with
the codes of R103 and R104, and the deadline views (R35). -/

namespace Sys2Proof.Machine

/-- A flag as one bit. -/
def bit (f : Bool) : BitVec 1 := BitVec.ofBool f

/-- `STATUS.BUSY`: 1 exactly when `fsm != IDLE` (R22). -/
def Block.busy (b : Block) : Bool := decide (b.fsm ≠ .idle)

/-- `STATUS` as read: `{0[31:6], CMD_ERR, BUSERR, IN_OVF, FATAL, tok_held, (fsm != IDLE)}` (R31, R49). -/
def Block.statusWord (b : Block) : Word :=
  (0#26 ++ bit b.cmdErr ++ bit b.busErr ++ bit b.inOvf ++ bit b.fatal ++ bit b.tokHeld ++ bit b.busy : BitVec 32)

/-- A write of `v` to `STATUS`: `IN_OVF`, `BUSERR` and `CMD_ERR` are cleared where bit 3, 4 or 5 of `v` is 1 (R32). -/
def Block.clearStatus (b : Block) (v : Word) : Block :=
  ((b.setInOvf (b.inOvf && !v.getLsbD 3)).setBusErr (b.busErr && !v.getLsbD 4)).setCmdErr (b.cmdErr && !v.getLsbD 5)

/-- The code of a validation verdict (R104). -/
def Verdict.code : Verdict → BitVec 4
  | .pass => 0#4
  | .badId => 1#4
  | .badWin => 2#4
  | .badPayload => 3#4

/-- The code of a cause (R103). -/
def Cause.code : Cause → BitVec 4
  | .none => 0#4
  | .validation => 1#4
  | .denied => 2#4
  | .incomplete => 3#4
  | .noMessage => 4#4
  | .txFault => 5#4

/-- `RES_STAT` as read: OP in 23:16, CAUSE in 11:8, VAL in 7:4, OK in bit 0, every other bit 0 (R33, R49). -/
def Result.statWord (r : Result) : Word :=
  (0#8 ++ r.op ++ 0#4 ++ r.cause.code ++ r.val.code ++ 0#3 ++ bit r.ok : BitVec 32)

/-- `TOK_DL_LO` as read: `tok_dl[31:0]` (R35). -/
def Block.dlLo (b : Block) : Word := b.tokDl.extractLsb' 0 32

/-- `TOK_DL_HI` as read: `tok_dl[63:32]` (R35). -/
def Block.dlHi (b : Block) : Word := b.tokDl.extractLsb' 32 32

/-- `RES_BUF[i]` as read: the byte, or 0 at and above `RES_LEN` (R34). -/
def Result.bufWord (r : Result) (i : Nat) : Word :=
  match r.buf[i]? with
  | some x => zext32 x
  | none => 0#32

end Sys2Proof.Machine
end

