-- ==== Sys2Proof/Machine/Frame.lean ====
section
/-! DEFINITION. The encoder's two functions: validation (R75) and frame construction (R62, R76). -/

namespace Sys2Proof.Machine

/-- The integer lies in [0, hi]. Every comparison is on mathematical integers and inclusive (R75). -/
def inRange (hi v : Int) : Bool := decide (0 ≤ v) && decide (v ≤ hi)

/-- `validate(id_op, win_op, pl_op)`: the id first, then the window, then the payload (R75). -/
def validate (id win : Int) (pl : List Int) : Verdict :=
  if inRange 255 id then
    if inRange 65535 win then
      if pl.all (inRange 255) then .pass else .badPayload
    else .badWin
  else .badId

/-- The START marker (R62). -/
def startMarker : List Byte := [0xFF#8, 0xFF#8, 0xFF#8]

/-- The END marker (R62). -/
def endMarker : List Byte := [0xFE#8, 0xFE#8, 0xFE#8]

/-- The window field: two bytes, most significant first, omitted for a window of 0 (R63, R64). -/
def windowField (win : Int) : List Byte :=
  if win = 0 then [] else [operandByte (win / 256), operandByte (win % 256)]

/-- `frame(id, win, pl)` (R76). Its callers run it only where `validate` passes. -/
def frame (id win : Int) (pl : List Int) : List Byte :=
  startMarker ++ [operandByte id] ++ windowField win ++ pl.map operandByte ++ endMarker

/-- The validation verdict of the operand registers (R70, R75). -/
def Block.verdict (b : Block) : Verdict := validate b.idOp b.winOp b.plOp

/-- The frame of the operand registers (R70, R76). -/
def Block.operandFrame (b : Block) : List Byte := frame b.idOp b.winOp b.plOp

end Sys2Proof.Machine
end

