-- ==== Sys2Proof/Machine/Scanner.lean ====
section
/-! DEFINITION. The frame boundary scanner: the closed form of R78, which the commands use, and the streaming machine of
R79. -/

namespace Sys2Proof.Machine

/-- What a scan returns (R78). -/
inductive Scan where
  | frame (id : Byte) (payload : List Byte)
  | incomplete
deriving DecidableEq, Repr

/-- The three bytes `s[i..i+2]`; fewer where `s` ends before. -/
def window3 (s : List Byte) (i : Nat) : List Byte := (s.drop i).take 3

/-- The least `i` with `i + 2 < len(s)` and `s[i..i+2]` the START marker (R78). -/
def startIndex (s : List Byte) : Option Nat := (List.range s.length).find? fun i => decide (window3 s i = startMarker)

/-- The least count `n` with `END_MIN <= n <= len(body)` and `body[n-3..n-1]` the END marker (R78). -/
def endCount (body : List Byte) : Option Nat :=
  (List.range (body.length + 1)).find? fun n =>
    decide (Config.endMin ≤ n) && decide (window3 body (n - 3) = endMarker)

/-- The frame in the bytes after a START marker: `id = body[0]`, `payload = body[1..n-4]` (R78). -/
def scanBody (body : List Byte) : Scan :=
  match endCount body, body with
  | some n, id :: rest => .frame id (rest.take (n - 4))
  | _, _ => .incomplete

/-- `scan_fn(s)`: the closed form of R78. -/
def scanFn (s : List Byte) : Scan :=
  match startIndex s with
  | some i => scanBody (s.drop (i + 3))
  | none => .incomplete

/-- The states of the streaming scanner (R79). -/
inductive StreamState where
  | hunt (w : List Byte)
  | body (acc : List Byte)
  | done (r : Scan)
deriving DecidableEq, Repr

/-- One byte through the streaming scanner (R79). Once a frame is found later bytes are not examined. -/
def streamStep (st : StreamState) (x : Byte) : StreamState :=
  match st with
  | .hunt w =>
    let w' := w ++ [x]
    if w'.length = 3 then
      if w' = startMarker then .body [] else .hunt (w'.drop 1)
    else .hunt w'
  | .body acc =>
    let acc' := acc ++ [x]
    if Config.endMin ≤ acc'.length ∧ acc'.drop (acc'.length - 3) = endMarker then
      .done (.frame (acc'.headD 0x00#8) ((acc'.drop 1).take (acc'.length - 4)))
    else .body acc'
  | .done r => .done r

/-- What the streaming scanner returns when the bytes end (R79). -/
def StreamState.outcome : StreamState → Scan
  | .done r => r
  | .hunt _ => .incomplete
  | .body _ => .incomplete

/-- The streaming machine of R79 over a whole byte sequence, oldest byte first. -/
def scanStream (s : List Byte) : Scan := (s.foldl streamStep (.hunt [])).outcome

end Sys2Proof.Machine
end

