-- ==== Sys2Proof/Machine/Codec.lean ====
section
/-! DEFINITION. The Frame Codec's commands: ENCODE (R77) and SCAN (R84). -/

namespace Sys2Proof.Machine

/-- The result of the encode step of ENCODE and NEW_MESSAGE: the frame, or `VALIDATION` with its code (R77, R92). -/
def Block.encodeResult (b : Block) (i : Instr) : Block :=
  match b.verdict with
  | .pass => b.result i true .pass .none (operandByte b.idOp) b.operandFrame
  | v => b.result i false v .validation 0x00#8 []

/-- The result of a scan: the frame found, or `INCOMPLETE` (R84, R100). -/
def Block.scanResult (b : Block) (i : Instr) (r : Scan) : Block :=
  match r with
  | .frame id p => b.result i true .pass .none id p
  | .incomplete => b.result i false .pass .incomplete 0x00#8 []

/-- ENCODE (R77). -/
def execEncode (s : State) : Host.Outcome State Fault Refusal := .next (s.setBlk (s.blk.encodeResult .encode))

/-- SCAN (R84). -/
def execScan (s : State) : Host.Outcome State Fault Refusal :=
  .next (s.setBlk (s.blk.scanResult .scan (scanFn s.blk.inBuf)))

end Sys2Proof.Machine
end

