-- ==== Sys2Proof/Machine/Arbiter.lean ====
section
/-! DEFINITION. The Access Token Arbiter's commands: RELEASE (R90) and REFRESH (R91). -/

namespace Sys2Proof.Machine

/-- RELEASE (R90): no refresh first; refused where the deadline does not fit (R86). -/
def execRelease (s : State) : Host.Outcome State Fault Refusal :=
  match s.blk.releaseFn s.blk.durOp s.env.now with
  | some b => .next (s.setBlk (b.result .release (decide (0 < s.blk.durOp)) .pass .none 0x00#8 []))
  | none => .refused .deadlineOverflow

/-- REFRESH (R91). -/
def execRefresh (s : State) : Host.Outcome State Fault Refusal :=
  let b := s.blk.refreshFn s.env.now
  .next (s.setBlk (b.result .refresh b.tokHeld .pass .none 0x00#8 []))

end Sys2Proof.Machine
end

