-- ==== Sys2Proof/Machine/Session.lean ====
section
/-! DEFINITION. The Channel Session's commands: NEW_MESSAGE (R92), TRANSMIT (R93, R94), SEND_MESSAGE (R95, R96), the
issue of LISTEN (R97) and LISTEN_MESSAGE (R100), and GET_MESSAGE (R101). -/

namespace Sys2Proof.Machine

/-- NEW_MESSAGE (R92): on success the frame replaces `outbuf`; on failure `outbuf` is unchanged. -/
def execNewMessage (s : State) : Host.Outcome State Fault Refusal :=
  let b := s.blk.encodeResult .newMessage
  .next (s.setBlk (if s.blk.verdict = .pass then b.setOutBuf s.blk.operandFrame else b))

/-- What `transmit_fn` returns: the command's OK, CAUSE and RES_BUF (R93). -/
structure SendOut where
  ok    : Bool
  cause : Cause
  buf   : List Byte
deriving DecidableEq, Repr

/-- `transmit_fn(d, t)` (R93). `none` is a release refused by R86, reached only after the transport answered ok. -/
def transmitFn (d : Int) (t : Timestamp) (s : State) : Option (SendOut × State) :=
  let b := s.blk.refreshFn t
  if b.tokHeld then
    let seq := b.outBuf
    match s.env.txWrite seq with
    | (true, e) =>
      match b.releaseFn d t with
      | some b' => some (⟨true, .none, seq⟩, ⟨b'.setOutBuf [], e⟩)
      | none => none
    | (false, e) => some (⟨false, .txFault, []⟩, ⟨(b.setFatal true).setOutBuf [], e⟩)
  else some (⟨false, .denied, []⟩, ⟨b.setOutBuf [], s.env⟩)

/-- A send attempt of command `i` and its result (R94, R95). -/
def sendAttempt (i : Instr) (val : Verdict) (id : Byte) (d : Int) (t : Timestamp) (s : State) :
    Host.Outcome State Fault Refusal :=
  match transmitFn d t s with
  | some (out, s') => .next (s'.setBlk (s'.blk.result i out.ok val out.cause id out.buf))
  | none => .refused .deadlineOverflow

/-- TRANSMIT (R94): the reply window is `ARG_WIN` at its own issue. -/
def execTransmit (s : State) : Host.Outcome State Fault Refusal :=
  sendAttempt .transmit .pass 0x00#8 s.blk.durOp s.env.now s

/-- SEND_MESSAGE (R95): the encode step on success, then the send attempt whatever the verdict was (R96). -/
def execSendMessage (s : State) : Host.Outcome State Fault Refusal :=
  if s.blk.verdict = .pass then
    sendAttempt .sendMessage .pass (operandByte s.blk.idOp) s.blk.winOp s.env.now
      (s.setBlk (s.blk.setOutBuf s.blk.operandFrame))
  else sendAttempt .sendMessage s.blk.verdict 0x00#8 s.blk.winOp s.env.now s

/-- LISTEN at issue: `fsm <- LISTEN` and nothing else (R97). -/
def execListen (s : State) : Host.Outcome State Fault Refusal := .next (s.setBlk (s.blk.setFsm .listen))

/-- LISTEN_MESSAGE at issue: `fsm <- LISTEN_MSG` and nothing else (R100). -/
def execListenMessage (s : State) : Host.Outcome State Fault Refusal := .next (s.setBlk (s.blk.setFsm .listenMsg))

/-- GET_MESSAGE (R101). -/
def execGetMessage (s : State) : Host.Outcome State Fault Refusal :=
  if s.blk.lastId = 0x00#8 then
    .next (s.setBlk (s.blk.result .getMessage false .pass .noMessage 0x00#8 []))
  else
    .next (s.setBlk ((s.blk.result .getMessage true .pass .none s.blk.lastId s.blk.lastPl).setLast 0x00#8 []))

end Sys2Proof.Machine
end

