-- ==== Sys2Proof/Machine/Listen.lean ====
section
/-! DEFINITION. The listen loop of LISTEN and LISTEN_MESSAGE, one iteration per block step (R98, R100). -/

namespace Sys2Proof.Machine

/-- `listen_message_complete()`: scan, store the message found, report, and clear `inbuf` on every branch (R100). -/
def Block.listenMessageComplete (b : Block) : Block :=
  let r := scanFn b.inBuf
  let b' := b.scanResult .listenMessage r
  match r with
  | .frame id p => (b'.setLast id p).setInBuf []
  | .incomplete => b'.setInBuf []

/-- The end of the loop (R98): the command's completion, then `fsm <- IDLE`. -/
def Block.listenComplete (b : Block) : Block :=
  match b.fsm with
  | .listen => (b.result .listen true .pass .none 0x00#8 b.inBuf).setFsm .idle
  | .listenMsg => b.listenMessageComplete.setFsm .idle
  | .idle => b

/-- One byte drained into `inbuf`, or dropped with `IN_OVF` where it is full (R26, R98). -/
def Block.drain (b : Block) (x : Byte) : Block :=
  let (buf, dropped) := pushInbound Config.inCap b.inBuf x
  if dropped then b.setInOvf true else b.setInBuf buf

/-- `listen_iteration()` (R98): refresh, then complete, read one byte, or spin. DEDUCED (log 28): a token that an earlier
iteration returned stays held (R87), so with a clock that decreases (R17) the loop may complete at a time at or before the
deadline it started with, which R99 item 2 and R97 exclude in their words. -/
def listenIteration (s : State) : Host.Outcome State Fault Refusal :=
  let b := s.blk.refreshFn s.env.now
  if b.tokHeld = true ∧ s.env.rxWaiting = 0 then .next (s.setBlk b.listenComplete)
  else if 0 < s.env.rxWaiting then
    match s.env.rxRead with
    | some (x, e) => .next ⟨b.drain x, e⟩
    | none => .refused .rxNothingToRead
  else .next (s.setBlk b)

/-- The block's turn: an iteration while a LISTEN or LISTEN_MESSAGE runs and reset is released (R18, R98). A turn of a
block that is not enabled changes nothing. -/
def blockTurn (s : State) : Host.Outcome State Fault Refusal :=
  if s.env.resetAsserted = true ∨ s.blk.fsm = .idle then .next s else listenIteration s

end Sys2Proof.Machine
end

