-- ==== Sys2Proof/Machine/Registers.lean ====
section
/-! DEFINITION. The register map (R47, R48): which register an offset is, what a read returns (R49) and what a write of
a register other than `CMD` does (R50). -/

namespace Sys2Proof.Machine

/-- The offset of a register (R47). -/
def regOffsetNat : Reg → Nat
  | .cmd => 0x000
  | .status => 0x004
  | .argId => 0x008
  | .argWin => 0x00C
  | .plLen => 0x010
  | .resStat => 0x014
  | .resId => 0x018
  | .resLen => 0x01C
  | .tokDlLo => 0x020
  | .tokDlHi => 0x024
  | .inLen => 0x028
  | .outLen => 0x02C
  | .capPl => 0x030
  | .capIn => 0x034
  | .capRes => 0x038
  | .plData i => 0x1000 + 4 * i
  | .resBuf i => 0x2000 + 4 * i

/-- The offset of a register on the port. -/
def regOffset (r : Reg) : Offset := BitVec.ofNat 14 (regOffsetNat r)

/-- An element of one of the two array windows, reserved at and above its capacity (R48). -/
def windowReg (off : Nat) : Option Reg :=
  if 0x1000 ≤ off ∧ off < 0x1000 + 4 * Config.plCap then some (.plData ((off - 0x1000) / 4))
  else if 0x2000 ≤ off ∧ off < 0x2000 + 4 * Config.resCap then some (.resBuf ((off - 0x2000) / 4))
  else none

/-- The register at a 4-aligned offset; `none` is a reserved offset (R47). -/
def regAt (off : Offset) : Option Reg :=
  match off.toNat with
  | 0x000 => some .cmd
  | 0x004 => some .status
  | 0x008 => some .argId
  | 0x00C => some .argWin
  | 0x010 => some .plLen
  | 0x014 => some .resStat
  | 0x018 => some .resId
  | 0x01C => some .resLen
  | 0x020 => some .tokDlLo
  | 0x024 => some .tokDlHi
  | 0x028 => some .inLen
  | 0x02C => some .outLen
  | 0x030 => some .capPl
  | 0x034 => some .capIn
  | 0x038 => some .capRes
  | n => windowReg n

/-- What reading a register returns (R49). -/
def readReg (r : Reg) (b : Block) : Word :=
  match r with
  | .cmd => 0#32
  | .status => b.statusWord
  | .argId => b.argId
  | .argWin => b.argWin
  | .plLen => b.plLen
  | .resStat => b.res.statWord
  | .resId => zext32 b.res.id
  | .resLen => countWord b.res.buf.length
  | .tokDlLo => b.dlLo
  | .tokDlHi => b.dlHi
  | .inLen => countWord b.inBuf.length
  | .outLen => countWord b.outBuf.length
  | .capPl => countWord Config.plCap
  | .capIn => countWord Config.inCap
  | .capRes => countWord Config.resCap
  | .plData i => b.plData[i]?.getD 0#32
  | .resBuf i => b.res.bufWord i

/-- A write of `v` to `PL_LEN`: stored if it is at most `PL_CAP`, else ignored with `BUSERR` (R30). -/
def Block.writePlLen (b : Block) (v : Word) : Block :=
  if v.toNat ≤ Config.plCap then b.setPlLen v else b.setBusErr true

/-- What a write of a register other than `CMD` does; a write to a read-only register is a bad access (R50, R52).
A write to `CMD` is a command (R107) and is not this function's. -/
def writeReg (r : Reg) (v : Word) (b : Block) : Block :=
  match r with
  | .cmd => b
  | .status => b.clearStatus v
  | .argId => b.setArgId v
  | .argWin => b.setArgWin v
  | .plLen => b.writePlLen v
  | .plData i => b.setPlData (b.plData.setIfInBounds i v)
  | .resStat => b.badAccess
  | .resId => b.badAccess
  | .resLen => b.badAccess
  | .tokDlLo => b.badAccess
  | .tokDlHi => b.badAccess
  | .inLen => b.badAccess
  | .outLen => b.badAccess
  | .capPl => b.badAccess
  | .capIn => b.badAccess
  | .capRes => b.badAccess
  | .resBuf _ => b.badAccess

/-- The register a well-formed access reaches; `none` is a bad access (R45, R52). -/
def accessedReg (size : Nat) (off : Offset) : Option Reg :=
  if wellFormedAccess size off then regAt off else none

/-- `MemRead(off, size)`: the value returned and the block after it (R49, R52). -/
def portRead (size : Nat) (off : Offset) (b : Block) : Word × Block :=
  match accessedReg size off with
  | some r => (readReg r b, b)
  | none => (0#32, b.badAccess)

end Sys2Proof.Machine
end

