-- ==== Sys2Proof/Machine/Assembler.lean ====
section
/-! DEFINITION. The host's program notation as bus transactions (R73, R74). -/

namespace Sys2Proof.Machine

/-- `wr <REG>, <value>`: a negative decimal stands for its 32-bit two's-complement word (R73). -/
def wrOp (r : Reg) (v : Int) : HostOp := .access (.write 4 (regOffset r) (BitVec.ofInt 32 v))

/-- `rd <REG>` (R73). -/
def rdOp (r : Reg) : HostOp := .access (.read 4 (regOffset r))

/-- The writes of `ldpl` to `PL_DATA`, from element `k` on (R74). -/
def stageOps (k : Nat) : List Int → List HostOp
  | [] => []
  | v :: vs => wrOp (.plData k) v :: stageOps (k + 1) vs

/-- The expansion of one line (R73, R74). -/
def expandLine : AsmLine → List HostOp
  | .wr r v => [wrOp r v]
  | .rd r => [rdOp r]
  | .command i => [.access (.write 4 (regOffset .cmd) (encode i))]
  | .wait => [.wait]
  | .ldpl vs => stageOps 0 vs ++ [wrOp .plLen vs.length]
  | .clr => [wrOp .status 0x38]

/-- A program's operations, in its order (R73). -/
def assemble (p : List AsmLine) : List HostOp := p.flatMap expandLine

end Sys2Proof.Machine
end

