-- ==== Sys2Proof/Machine/Dispatch.lean ====
section
/-! DEFINITION. The meaning of each command, one arm per constructor of Instr. -/

namespace Sys2Proof.Machine

def exec (i : Instr) (s : State) : Host.Outcome State Fault Refusal :=
  match i with
  | .encode => Sys2Proof.Machine.execEncode s
  | .scan => Sys2Proof.Machine.execScan s
  | .release => Sys2Proof.Machine.execRelease s
  | .refresh => Sys2Proof.Machine.execRefresh s
  | .sendMessage => Sys2Proof.Machine.execSendMessage s
  | .newMessage => Sys2Proof.Machine.execNewMessage s
  | .transmit => Sys2Proof.Machine.execTransmit s
  | .listen => Sys2Proof.Machine.execListen s
  | .listenMessage => Sys2Proof.Machine.execListenMessage s
  | .getMessage => Sys2Proof.Machine.execGetMessage s

end Sys2Proof.Machine
end

