-- ==== Sys2Proof/Machine/Port.lean ====
section
/-! DEFINITION. The three agents' turns on the block: the host's transactions with the command gate of R107, and the
environment's moves (R11, R17 to R19). -/

namespace Sys2Proof.Machine

/-- Conditions (a) and (b) of R107: no command executes while FATAL or while a LISTEN or LISTEN_MESSAGE runs. -/
def Block.closed (b : Block) : Bool := b.fatal || b.busy

/-- A `CMD` write of word `w`: rejected with `CMD_ERR` and no other effect, or executed (R107). -/
def issue (w : Word) (s : State) : Host.Outcome State Fault Refusal :=
  if s.blk.closed then .next (s.setBlk s.blk.reject)
  else
    match decode w with
    | .ok i => exec i s
    | .error _ => .next (s.setBlk s.blk.reject)

/-- `MemWrite(off, size, v)` (R50, R52). -/
def portWrite (size : Nat) (off : Offset) (v : Word) (s : State) : Host.Outcome State Fault Refusal :=
  match accessedReg size off with
  | some .cmd => issue v s
  | some r => .next (s.setBlk (writeReg r v s.blk))
  | none => .next (s.setBlk s.blk.badAccess)

/-- The port's answer to a read, kept in the record of values the host has received (R16). -/
def answerRead (size : Nat) (off : Offset) (s : State) : Word × State :=
  let (v, b) := portRead size off s.blk
  (v, ⟨b, { s.env with hostReads := s.env.hostReads ++ [v] }⟩)

/-- One host transaction (R16). -/
def serveAccess (a : Access) (s : State) : Host.Outcome State Fault Refusal :=
  match a with
  | .read size off => .next (answerRead size off s).2
  | .write size off v => portWrite size off v s

/-- One operation of the host's program: a transaction, or one read of the `wait` loop, which stays in the program until
bit 0 of the value read is 0 (R74). -/
def serveOp (op : HostOp) (s : State) : Host.Outcome State Fault Refusal :=
  match op with
  | .access a => serveAccess a s
  | .wait =>
    let (v, s') := answerRead 4 (regOffset .status) s
    if v.getLsbD 0 then .next (s'.setEnv { s'.env with hostOps := .wait :: s'.env.hostOps }) else .next s'

/-- The host's turn: the next operation of its program, or a free transaction beyond it (R40). While reset is asserted
host accesses are not served and stay pending (R18). -/
def hostTurn (s : State) : Host.Outcome State Fault Refusal :=
  if s.env.resetAsserted then .next s
  else
    match s.env.hostOps with
    | op :: rest => serveOp op (s.setEnv { s.env with hostOps := rest })
    | [] => serveOp (.access (Config.freeAccess s.env.fresh)) (s.setEnv { s.env with fresh := s.env.fresh + 1 })

/-- A move of the environment (R11). -/
def envTurn (m : EnvMove) (s : State) : Host.Outcome State Fault Refusal :=
  match m with
  | .clock t => .next (s.setEnv { s.env with now := t })
  | .receive bs => .next (s.setEnv { s.env with rxQueue := s.env.rxQueue ++ bs })
  | .report r => .next (s.setEnv { s.env with rxReport := r })
  | .reply r => .next (s.setEnv { s.env with txReply := r })
  | .assertReset => .next ⟨Block.reset, { s.env with resetAsserted := true }⟩
  | .releaseReset => .next (s.setEnv { s.env with resetAsserted := false })
  | .resetInTransaction => .refused .resetInTransaction

/-- The next turn of the schedule, or a free one beyond it (R11, R56), and the state with it taken. -/
def takeTurn (s : State) : Turn × State :=
  match s.env.turns with
  | t :: rest => (t, s.setEnv { s.env with turns := rest })
  | [] => (Config.freeTurn s.env.fresh, s.setEnv { s.env with fresh := s.env.fresh + 1 })

/-- One turn of an agent. -/
def runTurn (t : Turn) (s : State) : Host.Outcome State Fault Refusal :=
  match t with
  | .host => hostTurn s
  | .block => blockTurn s
  | .env m => envTurn m s

/-- Put operations at the front of the host's program, give the host the turns that issue them, and release reset, so
that they are served next. -/
def State.withHostOps (s : State) (ops : List HostOp) : State :=
  s.setEnv
    { s.env with
      hostOps := ops ++ s.env.hostOps
      turns := List.replicate ops.length .host ++ s.env.turns
      resetAsserted := false }

end Sys2Proof.Machine
end

