-- ==== Sys2Proof/Machine/Step.lean ====
section
/-! DEFINITION. One step of the machine: the next agent takes its turn (R11). -/

namespace Sys2Proof.Machine

/-- One step: the next turn is taken from the schedule and run (R11, R56). -/
def step (s : State) : Host.Outcome State Fault Refusal := runTurn (takeTurn s).1 (takeTurn s).2

/-- `s` with the word `w` as the host's next transaction, a write to `CMD`, and the host's turn next (R21, R38). -/
def State.withFetchWord (s : State) (nbits w : Nat) : State :=
  s.withHostOps [.access (.write 4 (regOffset .cmd) (BitVec.ofNat 32 (w % 2 ^ nbits)))]

end Sys2Proof.Machine
end

