-- ==== Sys2Proof/Safety.lean ====
section
/-! DEFINITION. The terms the claims use: the invariants of R41, reachable states, what a step may leave unchanged, which
operation an agent's next turn runs, and what host notation accesses. -/

namespace Sys2Proof.Machine

/-! ## Invariants -/

/-- `outbuf` is `[]` or one encoder frame (R25, R41). -/
def Block.OutBufFramed (b : Block) : Prop :=
  b.outBuf = [] ∨ ∃ id win pl, validate id win pl = .pass ∧ b.outBuf = frame id win pl

/-- The invariants of R41, with `PL_LEN <= PL_CAP`, which the write rule of R30 keeps. -/
structure Block.Inv (b : Block) : Prop where
  outLen    : b.outBuf.length ≤ Config.outCap
  inLen     : b.inBuf.length ≤ Config.inCap
  lastLen   : b.lastPl.length ≤ Config.lastCap
  resLen    : b.res.buf.length ≤ Config.resCap
  outFramed : b.OutBufFramed
  fatalIdle : b.fatal = true → b.fsm = .idle
  plLen     : b.plLen.toNat ≤ Config.plCap

/-- The block's invariants, and a block held in its reset state while the reset input is asserted (R18). -/
structure State.Inv (s : State) : Prop where
  blk   : s.blk.Inv
  reset : s.env.resetAsserted = true → s.blk = Block.reset

/-- A state some run reaches: any environment connected to a block after reset, then steps. -/
inductive Reachable : State → Prop where
  | start (e : Env) : Reachable ⟨Block.reset, e⟩
  | step (s t : State) : Reachable s → step s = .next t → Reachable t

/-- `k` steps, stopping at the first that does not answer a next state. -/
def runSteps : Nat → State → Host.Outcome State Fault Refusal
  | 0, s => .next s
  | k + 1, s =>
    match step s with
    | .next t => runSteps k t
    | .fault f => .fault f
    | .refused r => .refused r

/-! ## Frames -/

/-- The result registers alone differ (R34). -/
def Block.OnlyResult (b c : Block) : Prop := c = b.setRes c.res

/-- The operand registers agree (R28 to R30). -/
def Block.SameOperands (b c : Block) : Prop :=
  c.argId = b.argId ∧ c.argWin = b.argWin ∧ c.plLen = b.plLen ∧ c.plData = b.plData

/-- The token agrees (R23). -/
def Block.SameToken (b c : Block) : Prop := c.tokHeld = b.tokHeld ∧ c.tokDl = b.tokDl

/-- The last message agrees (R27). -/
def Block.SameLast (b c : Block) : Prop := c.lastId = b.lastId ∧ c.lastPl = b.lastPl

/-- The block with other operand registers. -/
def Block.withOperands (b : Block) (aid awin n : Word) (d : Vector Word Config.plCap) : Block :=
  (((b.setArgId aid).setArgWin awin).setPlLen n).setPlData d

/-- What a host sees of the result: `RES_STAT` with its fields at their places, `RES_ID` and the buffer (R33, R34).
`code` is `OK + 16 * VAL + 256 * CAUSE + 65536 * OP`. -/
def Block.ShowsResult (b : Block) (code : Nat) (id : Byte) (buf : List Byte) : Prop :=
  (readReg .resStat b).toNat = code ∧ readReg .resId b = zext32 id ∧ b.res.buf = buf

/-- The token is held after a refresh at time `t`: it was held, or its deadline has passed (R87). -/
def Block.HeldAt (b : Block) (t : Timestamp) : Prop := b.tokHeld = true ∨ b.tokDl.toNat < t.toNat

/-- A `TxWrite` of `seq`: one more transaction with the whole sequence, some prefix of it on the wire (all of it where
the transport takes all), and nothing else of the environment changed (R19, R43). -/
def Env.Wrote (e : Env) (seq : List Byte) (e' : Env) : Prop :=
  e' = { e with txLog := e.txLog ++ [{ seq := seq, ok := e.txReply.ok }], wire := e'.wire } ∧
    ∃ p, p <+: seq ∧ e'.wire = e.wire ++ p ∧ (e.txReply.sent = none → p = seq)

/-- The outcomes of a send attempt of `seq` at `s` (R93, R94, R95): denied, faulted, sent without a window, or sent with
one. `code` is the OP and VAL part of `RES_STAT` and `id` its `RES_ID`. In each the command completes and only the token,
`outbuf`, FATAL and the result change. -/
def SendOutcomes (s : State) (seq : List Byte) (code : Nat) (id : Byte)
    (o : Host.Outcome State Fault Refusal) : Prop :=
  (¬ s.blk.HeldAt s.env.now →
    ∃ t, o = .next t ∧ t.env = s.env ∧ t.blk.ShowsResult (code + 0x200) id [] ∧
      (s.blk.setOutBuf []).OnlyResult t.blk) ∧
  (s.blk.HeldAt s.env.now → s.env.txReply.ok = false →
    ∃ t, o = .next t ∧ s.env.Wrote seq t.env ∧ t.blk.ShowsResult (code + 0x500) id [] ∧
      (((s.blk.setToken true s.blk.tokDl).setFatal true).setOutBuf []).OnlyResult t.blk) ∧
  (s.blk.HeldAt s.env.now → s.env.txReply.ok = true → s.blk.winOp ≤ 0 →
    ∃ t, o = .next t ∧ s.env.Wrote seq t.env ∧ t.blk.ShowsResult (code + 0x001) id seq ∧
      ((s.blk.setToken true s.blk.tokDl).setOutBuf []).OnlyResult t.blk) ∧
  (s.blk.HeldAt s.env.now → s.env.txReply.ok = true → 0 < s.blk.winOp →
    s.env.now.toNat + s.blk.winOp.toNat < 2 ^ 64 →
    ∃ t, o = .next t ∧ s.env.Wrote seq t.env ∧ t.blk.ShowsResult (code + 0x001) id seq ∧
      t.blk.tokDl.toNat = s.env.now.toNat + s.blk.winOp.toNat ∧
      ((s.blk.setToken false t.blk.tokDl).setOutBuf []).OnlyResult t.blk)

/-! ## Turns -/

/-- The host serves `op` next, and `s'` is `s` with that turn and operation taken. -/
structure HostNext (s : State) (op : HostOp) (s' : State) : Prop where
  turn    : s.env.turns = .host :: s'.env.turns
  running : s.env.resetAsserted = false
  op      : s.env.hostOps = op :: s'.env.hostOps
  rest    : s' = s.setEnv { s.env with turns := s'.env.turns, hostOps := s'.env.hostOps }

/-- The host writes `v` at offset `off` next, with a well-formed access, and `s'` is `s` with that turn and operation
taken. -/
def HostWrites (s : State) (off : Offset) (v : Word) (s' : State) : Prop :=
  HostNext s (.access (.write 4 off v)) s'

/-- The agent `t` moves next, and `s'` is `s` with that turn taken. -/
structure TurnNext (s : State) (t : Turn) (s' : State) : Prop where
  turn : s.env.turns = t :: s'.env.turns
  rest : s' = s.setEnv { s.env with turns := s'.env.turns }

/-- A byte offset of the register space that R47 and R48 reserve. -/
def ReservedOffset (off : Offset) : Prop :=
  (0x03C ≤ off.toNat ∧ off.toNat < 0x1000) ∨
    (0x1000 + 4 * Config.plCap ≤ off.toNat ∧ off.toNat < 0x2000) ∨
      0x2000 + 4 * Config.resCap ≤ off.toNat

/-- A read-only register other than `STATUS`, by its offset (R47, R52). -/
def ReadOnlyOffset (off : Offset) : Prop :=
  (0x014 ≤ off.toNat ∧ off.toNat ≤ 0x038) ∨
    (0x2000 ≤ off.toNat ∧ off.toNat < 0x2000 + 4 * Config.resCap)

/-! ## Host notation -/

/-- `wr` of `r` is one 4-byte write at offset `n`, of the number written or, for a negative decimal, of its 32-bit
two's-complement word, for every value that a word can hold; `rd` of `r` is one 4-byte read at `n` (R73). -/
def NotationAccesses (r : Reg) (n : Nat) : Prop :=
  (∀ v : Int, -2 ^ 31 ≤ v → v < 2 ^ 32 →
    ∃ w : Word, assemble [.wr r v] = [.access (.write 4 (BitVec.ofNat 14 n) w)] ∧
      (w.toNat : Int) = if v < 0 then v + 2 ^ 32 else v) ∧
  assemble [.rd r] = [.access (.read 4 (BitVec.ofNat 14 n))]

/-! ## The scanner's terms -/

/-- `FF FF FF` stands in `s` at index `i` (R78). -/
def StartAt (s : List Byte) (i : Nat) : Prop := i + 2 < s.length ∧ window3 s i = startMarker

/-- The body's first `n` bytes end in `FE FE FE`, with `END_MIN <= n <= len(body)` (R78). -/
def EndAt (body : List Byte) (n : Nat) : Prop :=
  Config.endMin ≤ n ∧ n ≤ body.length ∧ window3 body (n - 3) = endMarker

/-- A count at which `P` holds and below which it does not. -/
def Least (P : Nat → Prop) (n : Nat) : Prop := P n ∧ ∀ k < n, ¬ P k

/-- The bytes a sender puts between the id and the END marker: `Q` of R81. -/
def betweenIdAndEnd (win : Int) (pl : List Int) : List Byte := windowField win ++ pl.map operandByte

end Sys2Proof.Machine
end

