-- ==== Sys2Proof/Certificates/Slice0/Obligations.lean ====
section
/-! DEFINITION. The statements for the provers. Each docstring names the rules it formalises. -/

open Sys2Proof Sys2Proof.Machine

/-! ## Command words -/

/-- R68: a word selects a command exactly when it equals the opcode of the table. -/
def Obligations.WordSelectsCommandExactlyWhenItIsTheOpcode : Prop :=
  ∀ w : Word,
    (decode w = .ok .encode ↔ w = 0x00000001#32) ∧
    (decode w = .ok .scan ↔ w = 0x00000002#32) ∧
    (decode w = .ok .release ↔ w = 0x00000003#32) ∧
    (decode w = .ok .refresh ↔ w = 0x00000004#32) ∧
    (decode w = .ok .sendMessage ↔ w = 0x00000005#32) ∧
    (decode w = .ok .newMessage ↔ w = 0x00000006#32) ∧
    (decode w = .ok .transmit ↔ w = 0x00000007#32) ∧
    (decode w = .ok .listen ↔ w = 0x00000008#32) ∧
    (decode w = .ok .listenMessage ↔ w = 0x00000009#32) ∧
    (decode w = .ok .getMessage ↔ w = 0x0000000A#32)

/-- R67, R68: decoding an encoded well-formed command gives it back, and no other word decodes to it. -/
def Obligations.DecodeAndEncodeAgree : Prop :=
  (∀ i : Instr, i.wellFormed = true → decode (encode i) = .ok i) ∧
    ∀ (w : Word) (i : Instr), decode w = .ok i → encode i = w

/-- R69: the illegal words are exactly those with `OP = 0x00`, `OP` in 0x0B to 0xFF or a nonzero bit in 31:8, and such
a word written to `CMD` sets `CMD_ERR` and does nothing else. -/
def Obligations.IllegalWordsAreRejected : Prop :=
  ∀ w : Word,
    ((∀ i, decode w ≠ .ok i) ↔ (w.toNat % 256 = 0x00 ∨ 0x0B ≤ w.toNat % 256 ∨ w.toNat / 256 ≠ 0)) ∧
    ∀ s s' : State, HostWrites s 0x000#14 w s' → (∀ i, decode w ≠ .ok i) →
      step s = .next (s'.setBlk (s.blk.setCmdErr true))

/-- R68: a few words of the opcode table, written out, decode to their commands (a sanity check). -/
def Obligations.SampleWordsDecode : Prop :=
  decode 0b00000000000000000000000000000001#32 = .ok .encode ∧
    decode 0b00000000000000000000000000000100#32 = .ok .refresh ∧
    decode 0b00000000000000000000000000001010#32 = .ok .getMessage ∧
    decode 0b00000000000000000000000100000001#32 = .error .reservedBits

/-! ## The step and the port -/

/-- R46, R107: a step whose host writes to `CMD` a word that decodes to `i`, with no LISTEN running and FATAL clear,
is `exec i`, at the state with the host's turn and operation taken. `withFetchWord` sets up such a step. How State
lists the turn and the transaction is the model's choice (logs 1 and 2). -/
def Obligations.StepRunsTheDecodedCommand : Prop :=
  (∀ (s s' : State) (w : Word) (i : Instr), HostWrites s 0x000#14 w s' → decode w = .ok i → s.blk.fatal = false →
    s.blk.fsm = .idle → step s = exec i s' ∧ s'.blk = s.blk) ∧
  ∀ (s : State) (w : Word) (i : Instr), decode w = .ok i → s.blk.fatal = false → s.blk.fsm = .idle →
    step (s.withFetchWord 32 w.toNat) = exec i (s.setEnv { s.env with resetAsserted := false })

/-- R107: a `CMD` write is rejected, with `CMD_ERR` and no other effect, exactly under (a) FATAL, (b) a LISTEN or
LISTEN_MESSAGE in progress or (c) an illegal word; otherwise the command executes. -/
def Obligations.CommandWriteRejectedOrExecuted : Prop :=
  ∀ (s s' : State) (w : Word), HostWrites s 0x000#14 w s' →
    ((s.blk.fatal = true ∨ s.blk.fsm ≠ .idle ∨ ∀ i, decode w ≠ .ok i) →
      step s = .next (s'.setBlk (s.blk.setCmdErr true))) ∧
    (s.blk.fatal = false → s.blk.fsm = .idle → ∀ i, decode w = .ok i → step s = exec i s')

/-- R16, R46: a host transaction is served whole in the host's turn, and a read's value is what the host receives. The
record of returned values is the model's (log 10). -/
def Obligations.HostTransactionIsServedInOneStep : Prop :=
  (∀ (s s' : State) (size : Nat) (off : Offset), HostNext s (.access (.read size off)) s' →
    step s = .next ⟨(portRead size off s.blk).2,
      { s'.env with hostReads := s.env.hostReads ++ [(portRead size off s.blk).1] }⟩) ∧
  ∀ (s s' : State) (size : Nat) (off : Offset) (v : Word), HostNext s (.access (.write size off v)) s' →
    step s = portWrite size off v s'

/-- R74: `wait` repeats a read of `STATUS` until bit 0 of the value read is 0. That each host turn makes one such read
and the `wait` stays in `hostOps` meanwhile is the model's choice (log 22, DESIGN CHOICE), and so is the record
`hostReads` (log 10, DESIGN CHOICE). -/
def Obligations.WaitPollsStatusUntilNotBusy : Prop :=
  ∀ s s' : State, HostNext s .wait s' →
    ∃ t, step s = .next t ∧ t.blk = s.blk ∧
      t.env.hostReads = s.env.hostReads ++ [readReg .status s.blk] ∧
      t.env.hostOps = (if s.blk.fsm = .idle then s'.env.hostOps else .wait :: s'.env.hostOps)

/-- R73: `wr` and `rd` of each register of R47's table, and of each element of the two arrays, are one transaction at
its offset. R74: a mnemonic is one write of its opcode to `CMD`, `clr` writes 0x38 to `STATUS`, `ldpl` stages its values
and then their number. That `wait` stays one operation, which `WaitPollsStatusUntilNotBusy` serves, is the model's choice
(log 22, DESIGN CHOICE); so is the word of an `ldpl` value outside 32 bits (log 23, DEDUCED). -/
def Obligations.HostNotationExpandsToTransactions : Prop :=
  (∀ p ∈ [(Reg.cmd, 0x000), (.status, 0x004), (.argId, 0x008), (.argWin, 0x00C), (.plLen, 0x010), (.resStat, 0x014),
      (.resId, 0x018), (.resLen, 0x01C), (.tokDlLo, 0x020), (.tokDlHi, 0x024), (.inLen, 0x028), (.outLen, 0x02C),
      (.capPl, 0x030), (.capIn, 0x034), (.capRes, 0x038)], NotationAccesses p.1 p.2) ∧
  (∀ i < 256, NotationAccesses (.plData i) (0x1000 + 4 * i)) ∧
  (∀ i < 1024, NotationAccesses (.resBuf i) (0x2000 + 4 * i)) ∧
  (∀ i : Instr, assemble [.command i] = [.access (.write 4 0x000#14 ((opcode i).setWidth 32))]) ∧
  assemble [.clr] = [.access (.write 4 0x004#14 0x00000038#32)] ∧
  assemble [.wait] = [.wait] ∧
  ∀ vs : List Int, vs.length ≤ 256 →
    (assemble [.ldpl vs]).length = vs.length + 1 ∧
    (∀ (k : Nat) (h : k < vs.length),
      (assemble [.ldpl vs])[k]? =
        some (.access (.write 4 (BitVec.ofNat 14 (0x1000 + 4 * k)) (BitVec.ofInt 32 vs[k])))) ∧
    (assemble [.ldpl vs])[vs.length]? = some (.access (.write 4 0x010#14 (BitVec.ofNat 32 vs.length)))

/-- R49: what `MemRead(off, 4)` returns at every aligned offset, and that it changes no state except `BUSERR` on a
reserved offset. -/
def Obligations.ReadsReturnTheMappedValue : Prop :=
  ∀ b : Block,
    portRead 4 0x000#14 b = (0#32, b) ∧
    (portRead 4 0x004#14 b).2 = b ∧
    (portRead 4 0x004#14 b).1.toNat =
      (if b.fsm ≠ .idle then 1 else 0) + 2 * b.tokHeld.toNat + 4 * b.fatal.toNat + 8 * b.inOvf.toNat +
        16 * b.busErr.toNat + 32 * b.cmdErr.toNat ∧
    portRead 4 0x008#14 b = (b.argId, b) ∧
    portRead 4 0x00C#14 b = (b.argWin, b) ∧
    portRead 4 0x010#14 b = (b.plLen, b) ∧
    (portRead 4 0x014#14 b).2 = b ∧
    (portRead 4 0x014#14 b).1.toNat =
      b.res.ok.toNat + 16 * b.res.val.code.toNat + 256 * b.res.cause.code.toNat + 65536 * b.res.op.toNat ∧
    portRead 4 0x018#14 b = (BitVec.ofNat 32 b.res.id.toNat, b) ∧
    portRead 4 0x01C#14 b = (BitVec.ofNat 32 b.res.buf.length, b) ∧
    portRead 4 0x020#14 b = (BitVec.ofNat 32 (b.tokDl.toNat % 2 ^ 32), b) ∧
    portRead 4 0x024#14 b = (BitVec.ofNat 32 (b.tokDl.toNat / 2 ^ 32), b) ∧
    portRead 4 0x028#14 b = (BitVec.ofNat 32 b.inBuf.length, b) ∧
    portRead 4 0x02C#14 b = (BitVec.ofNat 32 b.outBuf.length, b) ∧
    portRead 4 0x030#14 b = (256#32, b) ∧
    portRead 4 0x034#14 b = (1024#32, b) ∧
    portRead 4 0x038#14 b = (1024#32, b) ∧
    (∀ (i : Nat) (h : i < 256), portRead 4 (BitVec.ofNat 14 (0x1000 + 4 * i)) b = (b.plData[i], b)) ∧
    (∀ (i : Nat) (h : i < b.res.buf.length), i < 1024 →
      portRead 4 (BitVec.ofNat 14 (0x2000 + 4 * i)) b = (BitVec.ofNat 32 b.res.buf[i].toNat, b)) ∧
    (∀ i : Nat, b.res.buf.length ≤ i → i < 1024 →
      portRead 4 (BitVec.ofNat 14 (0x2000 + 4 * i)) b = (0#32, b)) ∧
    ∀ off : Offset, off.toNat % 4 = 0 → ReservedOffset off → portRead 4 off b = (0#32, b.setBusErr true)

/-- R50: what `MemWrite(off, 4, v)` does at every aligned offset. -/
def Obligations.WritesDoWhatTheMapSays : Prop :=
  ∀ (s : State) (v : Word),
    portWrite 4 0x000#14 v s = issue v s ∧
    portWrite 4 0x004#14 v s =
      .next (s.setBlk (((s.blk.setInOvf (s.blk.inOvf && !v.getLsbD 3)).setBusErr (s.blk.busErr && !v.getLsbD 4)).setCmdErr
        (s.blk.cmdErr && !v.getLsbD 5))) ∧
    portWrite 4 0x008#14 v s = .next (s.setBlk (s.blk.setArgId v)) ∧
    portWrite 4 0x00C#14 v s = .next (s.setBlk (s.blk.setArgWin v)) ∧
    (v.toNat ≤ 256 → portWrite 4 0x010#14 v s = .next (s.setBlk (s.blk.setPlLen v))) ∧
    (256 < v.toNat → portWrite 4 0x010#14 v s = .next (s.setBlk (s.blk.setBusErr true))) ∧
    (∀ (i : Nat) (hi : i < 256), ∃ d : Vector Word 256,
      portWrite 4 (BitVec.ofNat 14 (0x1000 + 4 * i)) v s = .next (s.setBlk (s.blk.setPlData d)) ∧
      d[i] = v ∧ ∀ (j : Nat) (hj : j < 256), j ≠ i → d[j] = s.blk.plData[j]) ∧
    ∀ off : Offset, off.toNat % 4 = 0 → ReadOnlyOffset off ∨ ReservedOffset off →
      portWrite 4 off v s = .next (s.setBlk (s.blk.setBusErr true))

/-- R52: a bad access (wrong size or alignment, a reserved offset, a write to a read-only register) changes nothing
but `BUSERR`; a bad read returns 0. A write to `STATUS` is no bad access, and its bits 0 to 2 and 31:6 ignore it; an
out-of-range `PL_LEN` sets `BUSERR` too. -/
def Obligations.BadAccessesOnlySetBusErr : Prop :=
  (∀ (s s' : State) (size : Nat) (off : Offset), HostNext s (.access (.read size off)) s' →
    size ≠ 4 ∨ off.toNat % 4 ≠ 0 ∨ ReservedOffset off →
    step s = .next ⟨s.blk.setBusErr true, { s'.env with hostReads := s.env.hostReads ++ [0#32] }⟩) ∧
  (∀ (s s' : State) (size : Nat) (off : Offset) (v : Word), HostNext s (.access (.write size off v)) s' →
    size ≠ 4 ∨ off.toNat % 4 ≠ 0 ∨ ReservedOffset off ∨ ReadOnlyOffset off →
    step s = .next (s'.setBlk (s.blk.setBusErr true))) ∧
  (∀ (s s' : State) (v : Word), HostWrites s 0x004#14 v s' →
    ∃ t, step s = .next t ∧ (s.blk.busErr = false → t.blk.busErr = false) ∧
      ∀ k : Nat, k < 3 ∨ 5 < k → (readReg .status t.blk).getLsbD k = (readReg .status s.blk).getLsbD k) ∧
  ∀ (s s' : State) (v : Word), HostWrites s 0x010#14 v s' → 256 < v.toNat →
    step s = .next (s'.setBlk (s.blk.setBusErr true))

/-- R32: a write of `v` to `STATUS` clears each of `IN_OVF`, `BUSERR` and `CMD_ERR` whose bit is 1 in `v`, leaves the
others, and ignores bits 0, 1, 2 and 31:6. -/
def Obligations.StatusWriteClearsTheBitsWrittenOne : Prop :=
  ∀ (s s' : State) (v : Word), HostWrites s 0x004#14 v s' →
    ∃ t, step s = .next t ∧ t.env = s'.env ∧
      (∀ k : Nat, (readReg .status t.blk).getLsbD k =
        ((readReg .status s.blk).getLsbD k && !(decide (3 ≤ k ∧ k ≤ 5) && v.getLsbD k))) ∧
      t.blk = ((s.blk.setInOvf t.blk.inOvf).setBusErr t.blk.busErr).setCmdErr t.blk.cmdErr

/-- R30: `PL_LEN` is write-any-read-legal, `PL_DATA[i]` takes any value, and the payload operand is the first `PL_LEN`
elements read as `sext_32`, whatever the elements above hold. -/
def Obligations.PayloadOperandIsTheStagedPrefix : Prop :=
  (∀ (s s' : State) (v : Word), HostWrites s 0x010#14 v s' →
    step s = .next (s'.setBlk (if v.toNat ≤ 256 then s.blk.setPlLen v else s.blk.setBusErr true))) ∧
  (∀ (s s' : State) (v : Word) (i : Nat) (hi : i < 256), HostWrites s (BitVec.ofNat 14 (0x1000 + 4 * i)) v s' →
    ∃ d : Vector Word 256, step s = .next (s'.setBlk (s.blk.setPlData d)) ∧ d[i] = v ∧
      ∀ (j : Nat) (hj : j < 256), j ≠ i → d[j] = s.blk.plData[j]) ∧
  (∀ b : Block, b.plLen.toNat ≤ 256 →
    b.plOp.length = b.plLen.toNat ∧
      ∀ (k : Nat) (hk : k < 256), k < b.plLen.toNat → b.plOp[k]? = some (b.plData[k]).toInt) ∧
  ∀ b c : Block, c.plLen = b.plLen →
    (∀ (k : Nat) (hk : k < 256), k < b.plLen.toNat → c.plData[k] = b.plData[k]) → c.plOp = b.plOp

/-- R47, R48: every register has one offset, 4-aligned, and every aligned offset that is not reserved is one register.
-/
def Obligations.RegisterMapIsOneToOne : Prop :=
  (∀ r : Reg, r.wellFormed = true → regAt (regOffset r) = some r ∧ (regOffset r).toNat % 4 = 0) ∧
  ∀ off : Offset, off.toNat % 4 = 0 →
    (∀ r, regAt off = some r → r.wellFormed = true ∧ regOffset r = off) ∧
    (regAt off = none ↔ ReservedOffset off)

/-- R53, R59: whatever a host writes to the operand registers, it does not reach a running LISTEN or LISTEN_MESSAGE:
the block's turn does the same, with those registers carried along. -/
def Obligations.OperandWritesDoNotReachARunningListen : Prop :=
  ∀ (s : State) (aid awin n : Word) (d : Vector Word Config.plCap),
    (∀ t, blockTurn s = .next t →
      blockTurn (s.setBlk (s.blk.withOperands aid awin n d)) = .next (t.setBlk (t.blk.withOperands aid awin n d))) ∧
    ∀ r, blockTurn s = .refused r → blockTurn (s.setBlk (s.blk.withOperands aid awin n d)) = .refused r

/-! ## Frame Codec -/

/-- R9, R70: the operands are the registers read as two's-complement integers. -/
def Obligations.OperandsAreSignExtendedRegisters : Prop :=
  ∀ b : Block,
    (b.idOp = if b.argId.toNat < 2 ^ 31 then (b.argId.toNat : Int) else (b.argId.toNat : Int) - 2 ^ 32) ∧
    (b.winOp = if b.argWin.toNat < 2 ^ 31 then (b.argWin.toNat : Int) else (b.argWin.toNat : Int) - 2 ^ 32) ∧
    b.durOp = b.winOp ∧ (-2 ^ 31 ≤ b.idOp ∧ b.idOp < 2 ^ 31) ∧ (-2 ^ 31 ≤ b.winOp ∧ b.winOp < 2 ^ 31)

/-- R75: the verdict is the first failing check in the order id, window, payload, with inclusive bounds, and its code is
the one R75 gives it, which `RES_STAT[7:4]` reports (R104). -/
def Obligations.ValidationReportsTheFirstFailingCheck : Prop :=
  Verdict.code .pass = 0#4 ∧ Verdict.code .badId = 1#4 ∧ Verdict.code .badWin = 2#4 ∧
  Verdict.code .badPayload = 3#4 ∧
  ∀ (id win : Int) (pl : List Int),
    (validate id win pl = .badId ↔ (id < 0 ∨ 255 < id)) ∧
    (validate id win pl = .badWin ↔ (0 ≤ id ∧ id ≤ 255) ∧ (win < 0 ∨ 65535 < win)) ∧
    (validate id win pl = .badPayload ↔
      (0 ≤ id ∧ id ≤ 255) ∧ (0 ≤ win ∧ win ≤ 65535) ∧ ∃ v ∈ pl, v < 0 ∨ 255 < v) ∧
    (validate id win pl = .pass ↔
      (0 ≤ id ∧ id ≤ 255) ∧ (0 ≤ win ∧ win ≤ 65535) ∧ ∀ v ∈ pl, 0 ≤ v ∧ v ≤ 255)

/-- R62, R63, R76: the frame of validated operands, byte by byte, with no truncation. -/
def Obligations.FrameHasTheWireLayout : Prop :=
  ∀ (id win : Int) (pl : List Int), validate id win pl = .pass →
    (frame id win pl).map BitVec.toNat =
      [255, 255, 255, id.toNat] ++ (if win = 0 then [] else [win.toNat / 256, win.toNat % 256]) ++
        pl.map Int.toNat ++ [254, 254, 254]

/-- R65: the lengths of a frame, where the window field stands, and the least and greatest frame. -/
def Obligations.FrameLengthsAreSevenOrNinePlusPayload : Prop :=
  ∀ (id win : Int) (pl : List Int), validate id win pl = .pass →
    (win = 0 → (frame id win pl).length = 7 + pl.length) ∧
    (win ≠ 0 → (frame id win pl).length = 9 + pl.length ∧
      ∃ hi lo : Byte, (frame id win pl)[4]? = some hi ∧ (frame id win pl)[5]? = some lo ∧
        256 * hi.toNat + lo.toNat = win.toNat) ∧
    7 ≤ (frame id win pl).length ∧
    (pl.length ≤ 256 → (frame id win pl).length ≤ 265)

/-- R77: word 0x00000001 is ENCODE, which completes, reports the frame or the verdict, and changes the result
registers only. -/
def Obligations.EncodeReportsTheFrameOrTheVerdict : Prop :=
  decode 0x00000001#32 = .ok .encode ∧ ∀ s : State,
    ∃ t, exec .encode s = .next t ∧ t.env = s.env ∧ s.blk.OnlyResult t.blk ∧
    (validate s.blk.idOp s.blk.winOp s.blk.plOp = .pass →
      t.blk.ShowsResult 0x00010001 (BitVec.ofInt 8 s.blk.idOp) (frame s.blk.idOp s.blk.winOp s.blk.plOp)) ∧
    (∀ v, validate s.blk.idOp s.blk.winOp s.blk.plOp = v → v ≠ .pass →
      t.blk.ShowsResult (0x00010100 + 16 * v.code.toNat) 0x00#8 [])

/-- R78: the scan is the least START, the least END after at least `END_MIN` body bytes, the id right after START and
the payload between; otherwise it is incomplete. A payload has at most `len(s) - 7` bytes. -/
def Obligations.ScanFindsTheFirstStartAndEnd : Prop :=
  ∀ s : List Byte,
    (∀ i n id rest, Least (StartAt s) i → s.drop (i + 3) = id :: rest → Least (EndAt (id :: rest)) n →
      scanFn s = .frame id (rest.take (n - 4))) ∧
    ((∀ i, ¬ StartAt s i) → scanFn s = .incomplete) ∧
    (∀ i, Least (StartAt s) i → (∀ n, ¬ EndAt (s.drop (i + 3)) n) → scanFn s = .incomplete) ∧
    ∀ id p, scanFn s = .frame id p → p.length + 7 ≤ s.length

/-- R79: the streaming machine returns `scan_fn(s)` for every `s`. -/
def Obligations.StreamingScannerEqualsTheClosedForm : Prop :=
  ∀ s : List Byte, scanStream s = scanFn s

/-- R80: where the first three bytes are not the START marker, dropping the oldest byte alone changes no scan. -/
def Obligations.ScannerSlidesByOneByte : Prop :=
  ∀ (x : Byte) (s : List Byte), (x :: s).take 3 ≠ [0xFF#8, 0xFF#8, 0xFF#8] → scanFn (x :: s) = scanFn s

/-- R81: a frame on its own scans to its id and the bytes before the first `FE FE FE` of `Q ++ [FE FE FE]`; to all of
`Q` exactly when `Q` has no run `FE FE FE` and does not end with `FE`. -/
def Obligations.FrameScansToItsBytesBeforeTheFirstEndRun : Prop :=
  ∀ (id win : Int) (pl : List Int), validate id win pl = .pass →
    (∀ m, Least (fun j => window3 (betweenIdAndEnd win pl ++ endMarker) j = endMarker) m →
      scanFn (frame id win pl) = .frame (BitVec.ofInt 8 id) ((betweenIdAndEnd win pl).take m)) ∧
    (scanFn (frame id win pl) = .frame (BitVec.ofInt 8 id) (betweenIdAndEnd win pl) ↔
      (∀ j, window3 (betweenIdAndEnd win pl) j ≠ endMarker) ∧ (betweenIdAndEnd win pl).getLast? ≠ some 0xFE#8)

/-- R83: bytes after the frame a scan returns are not examined, and a buffer shorter than 7 bytes is incomplete. -/
def Obligations.OneScanReturnsTheFirstFrameOnly : Prop :=
  (∀ (s later : List Byte) (id : Byte) (p : List Byte), scanFn s = .frame id p →
    scanFn (s ++ later) = .frame id p) ∧
  ∀ s : List Byte, s.length < 7 → scanFn s = .incomplete

/-- R82: one stray `FF` before a frame moves its start back by a byte: the id reads as `FF` and the real id leads the
payload, where the bytes after the id are free of early END runs. -/
def Obligations.StrayMarkerByteShiftsTheFrame : Prop :=
  ∀ (id win : Int) (pl : List Int), validate id win pl = .pass →
    (∀ j, window3 (BitVec.ofInt 8 id :: betweenIdAndEnd win pl) j ≠ endMarker) →
    (BitVec.ofInt 8 id :: betweenIdAndEnd win pl).getLast? ≠ some 0xFE#8 →
    scanFn (0xFF#8 :: frame id win pl) = .frame 0xFF#8 (BitVec.ofInt 8 id :: betweenIdAndEnd win pl)

/-- R84: word 0x00000002 is SCAN, which completes, reports what the scanner finds in `inbuf`, and changes the result
registers only. -/
def Obligations.ScanReportsAndChangesNoBuffer : Prop :=
  decode 0x00000002#32 = .ok .scan ∧ ∀ s : State,
    ∃ t, exec .scan s = .next t ∧ t.env = s.env ∧ s.blk.OnlyResult t.blk ∧
    (∀ id p, scanFn s.blk.inBuf = .frame id p → t.blk.ShowsResult 0x00020001 id p) ∧
    (scanFn s.blk.inBuf = .incomplete → t.blk.ShowsResult 0x00020300 0x00#8 [])

/-! ## Access Token Arbiter -/

/-- R88: the arbiter's transition table, row by row; a release row holds where its deadline fits (R86). -/
def Obligations.ArbiterFollowsItsTransitionTable : Prop :=
  (∀ s s' : State, TurnNext s (.env .assertReset) s' →
    ∃ t, step s = .next t ∧ t.blk.tokHeld = true ∧ t.blk.tokDl = 0#64) ∧
  (∀ (b : Block) (d : Int) (t : Timestamp), 0 < d → t.toNat + d.toNat < 2 ^ 64 →
    ∃ dl : Timestamp, dl.toNat = t.toNat + d.toNat ∧ b.releaseFn d t = some (b.setToken false dl)) ∧
  (∀ (b : Block) (d : Int) (t : Timestamp), d ≤ 0 → b.releaseFn d t = some b) ∧
  (∀ (b : Block) (t : Timestamp), b.tokHeld = true → b.refreshFn t = b) ∧
  (∀ (b : Block) (t : Timestamp), b.tokHeld = false → b.tokDl.toNat < t.toNat →
    b.refreshFn t = b.setToken true b.tokDl) ∧
  ∀ (b : Block) (t : Timestamp), b.tokHeld = false → t.toNat ≤ b.tokDl.toNat → b.refreshFn t = b

/-- R86: a release with `d > 0` whose deadline is at or above `2^TS_WIDTH` is refused, in either arbiter state. That
TRANSMIT and SEND_MESSAGE are refused only where they come to it in the order of R93's pseudocode, with the token held and
the transport's answer ok, and complete where the send is denied or faulted, is the model's reading of R86 and R93
(log 7, DEDUCED, unsafe in those two cases). -/
def Obligations.DeadlineOverflowIsRefused : Prop :=
  ∀ s : State, 0 < s.blk.winOp → 2 ^ 64 ≤ s.env.now.toNat + s.blk.winOp.toNat →
    s.blk.releaseFn s.blk.winOp s.env.now = none ∧
    (s.blk.HeldAt s.env.now → s.env.txReply.ok = true →
      exec .transmit s = .refused .deadlineOverflow ∧ exec .sendMessage s = .refused .deadlineOverflow) ∧
    (¬ s.blk.HeldAt s.env.now ∨ s.env.txReply.ok = false →
      (∃ t, exec .transmit s = .next t) ∧ ∃ t, exec .sendMessage s = .next t)

/-- R89: after a release with `d > 0` at `t0`, the next refresh, at `t1`, leaves the token held exactly when
`t1 > t0 + d`. A refresh after one that returned the token is log 28. -/
def Obligations.WindowEndsStrictlyAfterTheDeadline : Prop :=
  ∀ (b c : Block) (d : Int) (t0 t1 : Timestamp), 0 < d → b.releaseFn d t0 = some c →
    ((c.refreshFn t1).tokHeld = true ↔ t0.toNat + d.toNat < t1.toNat)

/-- R90: word 0x00000003 is RELEASE, which completes where its deadline fits or it grants none: it sets the token
without a refresh, reports whether a window was granted, and changes nothing else. Where the deadline does not fit it
is refused. -/
def Obligations.ReleaseGrantsTheWindow : Prop :=
  decode 0x00000003#32 = .ok .release ∧ ∀ s : State,
    (s.blk.winOp ≤ 0 → ∃ t, exec .release s = .next t ∧ t.env = s.env ∧ s.blk.OnlyResult t.blk ∧
      t.blk.ShowsResult 0x00030000 0x00#8 []) ∧
    (0 < s.blk.winOp → s.env.now.toNat + s.blk.winOp.toNat < 2 ^ 64 →
      ∃ t, exec .release s = .next t ∧ t.env = s.env ∧
        t.blk.tokDl.toNat = s.env.now.toNat + s.blk.winOp.toNat ∧
        (s.blk.setToken false t.blk.tokDl).OnlyResult t.blk ∧ t.blk.ShowsResult 0x00030001 0x00#8 []) ∧
    (0 < s.blk.winOp → 2 ^ 64 ≤ s.env.now.toNat + s.blk.winOp.toNat → exec .release s = .refused .deadlineOverflow)

/-- R91: word 0x00000004 is REFRESH, which completes, returns the token where `now > tok_dl`, reports whether it is
held, and changes nothing else. -/
def Obligations.RefreshReturnsAndReportsTheToken : Prop :=
  decode 0x00000004#32 = .ok .refresh ∧ ∀ s : State,
    (s.blk.HeldAt s.env.now → ∃ t, exec .refresh s = .next t ∧ t.env = s.env ∧
      (s.blk.setToken true s.blk.tokDl).OnlyResult t.blk ∧ t.blk.ShowsResult 0x00040001 0x00#8 []) ∧
    (¬ s.blk.HeldAt s.env.now → ∃ t, exec .refresh s = .next t ∧ t.env = s.env ∧
      s.blk.OnlyResult t.blk ∧ t.blk.ShowsResult 0x00040000 0x00#8 [])

/-! ## Channel Session -/

/-- R92: word 0x00000006 is NEW_MESSAGE, which completes; on success the frame replaces `outbuf`, on failure `outbuf`
is unchanged; nothing else changes but the result. -/
def Obligations.NewMessageReplacesOrKeepsTheOutboundBuffer : Prop :=
  decode 0x00000006#32 = .ok .newMessage ∧ ∀ s : State, ∃ t, exec .newMessage s = .next t ∧ t.env = s.env ∧
    (validate s.blk.idOp s.blk.winOp s.blk.plOp = .pass →
      (s.blk.setOutBuf (frame s.blk.idOp s.blk.winOp s.blk.plOp)).OnlyResult t.blk ∧
      t.blk.ShowsResult 0x00060001 (BitVec.ofInt 8 s.blk.idOp) (frame s.blk.idOp s.blk.winOp s.blk.plOp)) ∧
    (∀ v, validate s.blk.idOp s.blk.winOp s.blk.plOp = v → v ≠ .pass →
      s.blk.OnlyResult t.blk ∧ t.blk.ShowsResult (0x00060100 + 16 * v.code.toNat) 0x00#8 [])

/-- R93, R94: word 0x00000007 is TRANSMIT, whose outcomes these are: it sends what `outbuf` holds, even the empty
sequence, while the token is held after the refresh. -/
def Obligations.TransmitSendsTheOutboundBufferWhileHeld : Prop :=
  decode 0x00000007#32 = .ok .transmit ∧
    ∀ s : State, SendOutcomes s s.blk.outBuf 0x00070000 0x00#8 (exec .transmit s)

/-- R95, R96: word 0x00000005 is SEND_MESSAGE, whose outcomes these are. On operands that pass validation it sends
their frame, with `VAL` PASS. On operands that fail it sends what `outbuf` held before and still releases for the raw
window; the verdict shows in `VAL`. -/
def Obligations.SendMessageSendsTheFrameOrTheStaleBuffer : Prop :=
  decode 0x00000005#32 = .ok .sendMessage ∧ ∀ s : State,
    (validate s.blk.idOp s.blk.winOp s.blk.plOp = .pass →
      SendOutcomes s (frame s.blk.idOp s.blk.winOp s.blk.plOp) 0x00050000 (BitVec.ofInt 8 s.blk.idOp)
        (exec .sendMessage s)) ∧
    ∀ v : Verdict, validate s.blk.idOp s.blk.winOp s.blk.plOp = v → v ≠ .pass →
      SendOutcomes s s.blk.outBuf (0x00050000 + 16 * v.code.toNat) 0x00#8 (exec .sendMessage s)

/-- R22, R34, R56: a command other than LISTEN and LISTEN_MESSAGE that completes has written its result, with its own
opcode in OP, and leaves the block idle, within its `CMD` write; LISTEN and LISTEN_MESSAGE write no result in theirs.
-/
def Obligations.CommandsCompleteWithinTheirWrite : Prop :=
  ∀ (i : Instr) (s t : State), exec i s = .next t → s.blk.fsm = .idle →
    (i ≠ .listen ∧ i ≠ .listenMessage → t.blk.fsm = .idle ∧ t.blk.res.op = opcode i) ∧
    (i = .listen ∨ i = .listenMessage → t.blk.fsm ≠ .idle ∧ t.blk.res = s.blk.res)

/-- R106: a write fault in TRANSMIT or SEND_MESSAGE sets FATAL, skips the release, clears `outbuf`, reports TX_FAULT,
and every later `CMD` write is rejected while FATAL stands. -/
def Obligations.TransportFaultIsFatal : Prop :=
  (∀ (s : State) (i : Instr), i = .transmit ∨ i = .sendMessage → s.blk.HeldAt s.env.now → s.env.txReply.ok = false →
    ∃ t, exec i s = .next t ∧ t.blk.fatal = true ∧ t.blk.tokHeld = true ∧ t.blk.tokDl = s.blk.tokDl ∧
      t.blk.outBuf = [] ∧ t.blk.res.ok = false ∧ t.blk.res.cause = .txFault ∧ t.blk.res.buf = []) ∧
  ∀ (s s' : State) (w : Word), HostWrites s 0x000#14 w s' → s.blk.fatal = true →
    step s = .next (s'.setBlk (s.blk.setCmdErr true))

/-- R97, R100: LISTEN and LISTEN_MESSAGE complete their issue by setting `fsm`, so that `BUSY` reads 1, and nothing
else; the previous result still reads. -/
def Obligations.ListenCommandsOnlyStartTheLoop : Prop :=
  ∀ s : State,
    (∃ t, exec .listen s = .next t ∧ t.env = s.env ∧ t.blk = s.blk.setFsm .listen ∧
      (readReg .status t.blk).getLsbD 0 = true ∧ readReg .resStat t.blk = readReg .resStat s.blk) ∧
    ∃ t, exec .listenMessage s = .next t ∧ t.env = s.env ∧ t.blk = s.blk.setFsm .listenMsg ∧
      (readReg .status t.blk).getLsbD 0 = true ∧ readReg .resStat t.blk = readReg .resStat s.blk

/-- R98: a listen iteration, case by case: completion of LISTEN, completion of LISTEN_MESSAGE by R100's function, a
byte read, a byte dropped, and the spin. -/
def Obligations.ListenIterationRefreshesThenCompletesReadsOrSpins : Prop :=
  ∀ s s' : State, TurnNext s .block s' → s.env.resetAsserted = false → s.blk.fsm ≠ .idle →
    (s.blk.HeldAt s.env.now → s.env.rxWaiting = 0 → s.blk.fsm = .listen →
      ∃ t, step s = .next t ∧ t.env = s'.env ∧ t.blk.ShowsResult 0x00080001 0x00#8 s.blk.inBuf ∧
        ((s.blk.setToken true s.blk.tokDl).setFsm .idle).OnlyResult t.blk) ∧
    (s.blk.HeldAt s.env.now → s.env.rxWaiting = 0 → s.blk.fsm = .listenMsg →
      step s = .next (s'.setBlk ((s.blk.setToken true s.blk.tokDl).listenMessageComplete.setFsm .idle))) ∧
    (∀ x rest, 0 < s.env.rxWaiting → s.env.rxQueue = x :: rest →
      ∃ t, step s = .next t ∧ t.env = { s'.env with rxQueue := rest } ∧
        (t.blk.tokHeld = true ↔ s.blk.HeldAt s.env.now) ∧
        (s.blk.inBuf.length < 1024 →
          t.blk = (s.blk.setToken t.blk.tokHeld s.blk.tokDl).setInBuf (s.blk.inBuf ++ [x])) ∧
        (1024 ≤ s.blk.inBuf.length → t.blk = (s.blk.setToken t.blk.tokHeld s.blk.tokDl).setInOvf true)) ∧
    (¬ s.blk.HeldAt s.env.now → s.env.rxWaiting = 0 → step s = .next s')

/-- R99 items 1 and 2: an iteration of a running loop completes it exactly when the token is held after the refresh
and nothing is waiting; while the token is still RELEASED(dl), at no iteration whose `t <= dl`. That a loop whose token an
earlier iteration returned may complete at `t <= dl`, with a clock that decreases, is the model's reading of R98 (log 28,
DEDUCED). -/
def Obligations.ListenCompletesExactlyWhenHeldAndQuiet : Prop :=
  ∀ s s' t : State, TurnNext s .block s' → s.env.resetAsserted = false → s.blk.fsm ≠ .idle → step s = .next t →
    (t.blk.fsm = .idle ↔ s.blk.HeldAt s.env.now ∧ s.env.rxWaiting = 0) ∧
    (s.blk.tokHeld = false → s.env.now.toNat ≤ s.blk.tokDl.toNat →
      t.blk.fsm = s.blk.fsm ∧ t.blk.tokHeld = false ∧ t.blk.res = s.blk.res)

/-- R100: word 0x00000009 is LISTEN_MESSAGE, whose issue sets `fsm` and whose completion stores and reports the frame
found, or reports INCOMPLETE and leaves the last message; `inbuf` is cleared on every branch. -/
def Obligations.ListenMessageStoresTheFrameFound : Prop :=
  decode 0x00000009#32 = .ok .listenMessage ∧
  (∀ s : State, exec .listenMessage s = .next (s.setBlk (s.blk.setFsm .listenMsg))) ∧
  ∀ s s' : State, TurnNext s .block s' → s.env.resetAsserted = false → s.blk.fsm = .listenMsg →
    s.blk.HeldAt s.env.now → s.env.rxWaiting = 0 →
    ∃ t, step s = .next t ∧ t.env = s'.env ∧
      (∀ id p, scanFn s.blk.inBuf = .frame id p →
        t.blk.ShowsResult 0x00090001 id p ∧
        ((((s.blk.setToken true s.blk.tokDl).setFsm .idle).setLast id p).setInBuf []).OnlyResult t.blk) ∧
      (scanFn s.blk.inBuf = .incomplete →
        t.blk.ShowsResult 0x00090300 0x00#8 [] ∧
        (((s.blk.setToken true s.blk.tokDl).setFsm .idle).setInBuf []).OnlyResult t.blk)

/-- R101: word 0x0000000A is GET_MESSAGE, which completes: it reports and consumes the last message, or reports
NO_MESSAGE for id 0 without touching it. -/
def Obligations.GetMessageConsumesTheLastMessage : Prop :=
  decode 0x0000000A#32 = .ok .getMessage ∧ ∀ s : State, ∃ t, exec .getMessage s = .next t ∧ t.env = s.env ∧
    (s.blk.lastId = 0x00#8 → s.blk.OnlyResult t.blk ∧ t.blk.ShowsResult 0x000A0400 0x00#8 []) ∧
    (s.blk.lastId ≠ 0x00#8 → (s.blk.setLast 0x00#8 []).OnlyResult t.blk ∧
      t.blk.ShowsResult 0x000A0001 s.blk.lastId s.blk.lastPl)

/-- R102: the GET_MESSAGE after a message is stored returns it, and one after that, with the last message as the first
left it, returns no message. -/
def Obligations.AMessageIsReturnedOnce : Prop :=
  ∀ s : State, s.blk.lastId ≠ 0x00#8 →
    ∃ t, exec .getMessage s = .next t ∧ t.blk.ShowsResult 0x000A0001 s.blk.lastId s.blk.lastPl ∧
      ∀ u : State, t.blk.SameLast u.blk →
        ∃ v, exec .getMessage u = .next v ∧ v.blk.ShowsResult 0x000A0400 0x00#8 [] ∧ u.blk.SameLast v.blk

/-- R20, R59, R85: no command writes an operand register, a W1C flag, `inbuf`, the clock, the receive queue or
anything of the host's. -/
def Obligations.CommandsLeaveOperandsFlagsAndInboundBuffer : Prop :=
  ∀ (i : Instr) (s t : State), exec i s = .next t →
    s.blk.SameOperands t.blk ∧ t.blk.inBuf = s.blk.inBuf ∧ t.blk.inOvf = s.blk.inOvf ∧
      t.blk.busErr = s.blk.busErr ∧ t.blk.cmdErr = s.blk.cmdErr ∧
      t.env = { s.env with txLog := t.env.txLog, wire := t.env.wire }

/-- R98, R99: a LISTEN with the token held reads a waiting queue that fits, in order, one byte a step, and completes
in the step after the last byte with a copy of `inbuf`. The schedule of turns is a premise (R131, log 1). -/
def Obligations.ListenDrainsTheQueueAndCompletes : Prop :=
  ∀ (s : State) (ts : List Turn),
    s.blk.fsm = .listen → s.blk.tokHeld = true → s.env.resetAsserted = false → s.env.rxReport = none →
    s.blk.inBuf.length + s.env.rxQueue.length ≤ 1024 →
    s.env.turns = List.replicate (s.env.rxQueue.length + 1) .block ++ ts →
    ∃ t, runSteps (s.env.rxQueue.length + 1) s = .next t ∧
      t.env = { s.env with rxQueue := [], turns := ts } ∧
      t.blk.ShowsResult 0x00080001 0x00#8 (s.blk.inBuf ++ s.env.rxQueue) ∧
      ((s.blk.setFsm .idle).setInBuf (s.blk.inBuf ++ s.env.rxQueue)).OnlyResult t.blk

/-- R62, R81, R98, R100, R101: a frame without window whose payload has no early END run, waiting in the receive
queue, is received by LISTEN_MESSAGE and is what GET_MESSAGE then returns. The schedule of turns is a premise (R131,
log 1). The scan of a frame with a window is stated by `FrameScansToItsBytesBeforeTheFirstEndRun`. -/
def Obligations.AFrameSentIsTheMessageReceived : Prop :=
  ∀ (s : State) (ts : List Turn) (id : Int) (pl : List Int),
    validate id 0 pl = .pass → 0 < id → pl.length ≤ 256 →
    (∀ j, window3 (pl.map operandByte) j ≠ endMarker) → (pl.map operandByte).getLast? ≠ some 0xFE#8 →
    s.blk.fsm = .listenMsg → s.blk.tokHeld = true → s.blk.inBuf = [] → s.env.resetAsserted = false →
    s.env.rxReport = none → s.env.rxQueue = frame id 0 pl →
    s.env.turns = List.replicate ((frame id 0 pl).length + 1) .block ++ ts →
    ∃ t u, runSteps ((frame id 0 pl).length + 1) s = .next t ∧
      t.blk.fsm = .idle ∧ t.blk.inBuf = [] ∧ t.env.rxQueue = [] ∧
      exec .getMessage t = .next u ∧ u.blk.ShowsResult 0x000A0001 (BitVec.ofInt 8 id) (pl.map (BitVec.ofInt 8))

/-! ## Reset and the environment -/

/-- R39: the values of every piece of block state after reset. -/
def Obligations.ResetLeavesTheValuesOfTheTable : Prop :=
  State.reset.blk.fsm = .idle ∧ State.reset.blk.tokHeld = true ∧ State.reset.blk.tokDl = 0#64 ∧
    State.reset.blk.outBuf = [] ∧ State.reset.blk.inBuf = [] ∧ State.reset.blk.lastId = 0x00#8 ∧
    State.reset.blk.lastPl = [] ∧ State.reset.blk.argId = 0#32 ∧ State.reset.blk.argWin = 0#32 ∧
    State.reset.blk.plLen = 0#32 ∧ (∀ (i : Nat) (h : i < 256), State.reset.blk.plData[i] = 0#32) ∧
    readReg .resStat State.reset.blk = 0#32 ∧ State.reset.blk.res.id = 0x00#8 ∧ State.reset.blk.res.buf = [] ∧
    readReg .status State.reset.blk = 0x00000002#32

/-- R18: asserting reset puts the block in its reset state, aborts a LISTEN with no result, and leaves the transport
and its queue. While it is asserted a host access is not served and stays pending, and the block takes no step. That a
turn then changes nothing is the model's reading (logs 5 and 6). -/
def Obligations.ResetOverridesEverythingButTheTransport : Prop :=
  (∀ s s' : State, TurnNext s (.env .assertReset) s' →
    step s = .next ⟨State.reset.blk, { s'.env with resetAsserted := true }⟩) ∧
  (∀ (s s' : State) (t : Turn), TurnNext s t s' → t = .host ∨ t = .block → s.env.resetAsserted = true →
    step s = .next s') ∧
  ∀ s s' : State, TurnNext s (.env .releaseReset) s' →
    step s = .next (s'.setEnv { s'.env with resetAsserted := false })

/-- R122: a SEND_MESSAGE straight after reset writes `FF FF FF 00 FE FE FE` and keeps the token (in `State.reset`,
whose transport answers ok: the model's choice, log 3). -/
def Obligations.FirstSendAfterResetIsTheIdZeroFrame : Prop :=
  ∃ t, exec .sendMessage State.reset = .next t ∧
    t.env.txLog.map TxRecord.seq = [[0xFF#8, 0xFF#8, 0xFF#8, 0x00#8, 0xFE#8, 0xFE#8, 0xFE#8]] ∧
    t.blk.tokHeld = true ∧ t.blk.res.val = .pass ∧ t.blk.res.ok = true

/-- R23, R24, R61: the clock and the transport move without changing block state: an expired token still reads as
released, and received bytes wait in the transport's queue. -/
def Obligations.EnvironmentMovesLeaveTheBlock : Prop :=
  ∀ (s s' : State) (m : EnvMove), TurnNext s (.env m) s' → m ≠ .assertReset → m ≠ .resetInTransaction →
    ∃ t, step s = .next t ∧ t.blk = s.blk ∧
      (∀ n, m = .clock n → t.env = { s'.env with now := n }) ∧
      (∀ bs, m = .receive bs → t.env = { s'.env with rxQueue := s.env.rxQueue ++ bs })

/-! ## Whole-machine rules -/

/-- R41 at reset: the state right after reset meets the invariants. -/
def Obligations.ResetStateMeetsTheInvariants : Prop := State.reset.Inv

/-- R41, R30, R18: every step keeps the invariants, from every state that meets them. -/
def Obligations.EveryStepKeepsTheInvariants : Prop :=
  ∀ s t : State, s.Inv → step s = .next t → t.Inv

/-- R41: the invariants hold in every reachable state, whatever environment the block is connected to. -/
def Obligations.ReachableStatesMeetTheInvariants : Prop :=
  ∀ s : State, Reachable s →
    s.blk.outBuf.length ≤ 265 ∧ s.blk.inBuf.length ≤ 1024 ∧ s.blk.lastPl.length ≤ 1017 ∧
      s.blk.res.buf.length ≤ 1024 ∧ s.blk.OutBufFramed ∧ (s.blk.fatal = true → s.blk.fsm = .idle)

/-- R23, R86, R87: `tok_held` goes from 0 to 1 only by a refresh after the deadline, which a listen iteration, REFRESH,
TRANSMIT or SEND_MESSAGE makes, or by reset; it goes from 1 to 0, and `tok_dl` changes, only by the release of a RELEASE,
TRANSMIT or SEND_MESSAGE that completes with OK, to `now` plus the window, or by reset. So no received byte takes the
token. The command is named by OP after the step, in a state whose gate of R107 is open before it. -/
def Obligations.TokenMovesOnlyByTimeReleaseOrReset : Prop :=
  ∀ s t : State, step s = .next t → t.blk ≠ Block.reset →
    (s.blk.tokHeld = false → t.blk.tokHeld = true →
      s.blk.tokDl.toNat < s.env.now.toNat ∧
      (s.blk.fsm ≠ .idle ∨ (s.blk.fatal = false ∧
        (t.blk.res.op = 0x04#8 ∨ t.blk.res.op = 0x05#8 ∨ t.blk.res.op = 0x07#8)))) ∧
    (t.blk.tokDl ≠ s.blk.tokDl ∨ (s.blk.tokHeld = true ∧ t.blk.tokHeld = false) →
      t.blk.tokHeld = false ∧ 0 < s.blk.winOp ∧ t.blk.tokDl.toNat = s.env.now.toNat + s.blk.winOp.toNat ∧
      s.blk.fsm = .idle ∧ s.blk.fatal = false ∧ t.blk.res.ok = true ∧
      (t.blk.res.op = 0x03#8 ∨ t.blk.res.op = 0x05#8 ∨ t.blk.res.op = 0x07#8))

/-- R31, R106, R107: once FATAL is set, a step is a reset or leaves FATAL, the token, the buffers, the last message,
the result and the transport's transmit record as they are. -/
def Obligations.FatalStandsUntilReset : Prop :=
  ∀ s t : State, s.Inv → s.blk.fatal = true → step s = .next t →
    t.blk = Block.reset ∨
      (t.blk.fatal = true ∧ s.blk.SameToken t.blk ∧ t.blk.outBuf = s.blk.outBuf ∧ t.blk.inBuf = s.blk.inBuf ∧
        s.blk.SameLast t.blk ∧ t.blk.res = s.blk.res ∧ t.env.txLog = s.env.txLog ∧ t.env.wire = s.env.wire)

/-- R25, R96: every step leaves `outbuf`, clears it as a TRANSMIT, a SEND_MESSAGE or reset, or is a NEW_MESSAGE that
replaces it by the frame of operands that pass validation; so a non-empty `outbuf` is the frame of a NEW_MESSAGE that
no TRANSMIT, SEND_MESSAGE or reset has followed. The command is named by OP after the step, in a state whose gate of R107
is open before it. -/
def Obligations.OutboundBufferHoldsAFrameOrIsCleared : Prop :=
  ∀ s t : State, step s = .next t →
    t.blk.outBuf = s.blk.outBuf ∨
      (t.blk.outBuf = [] ∧ s.blk.fsm = .idle ∧ s.blk.fatal = false ∧
        (t.blk.res.op = 0x05#8 ∨ t.blk.res.op = 0x07#8)) ∨
      t.blk = Block.reset ∨
      (validate s.blk.idOp s.blk.winOp s.blk.plOp = .pass ∧ s.blk.fsm = .idle ∧ s.blk.fatal = false ∧
        t.blk.res.op = 0x06#8 ∧ t.blk.outBuf = frame s.blk.idOp s.blk.winOp s.blk.plOp)

/-- R26: `inbuf` is left, gains the oldest byte of the receive queue while a LISTEN or LISTEN_MESSAGE runs, or is
cleared by the completion of a LISTEN_MESSAGE or by reset. R27: the last message is left, becomes the frame that the
completion of a LISTEN_MESSAGE finds in `inbuf`, or is cleared by a GET_MESSAGE that returns it or by reset. -/
def Obligations.InboundBufferAndLastMessageChangeOnlyByListening : Prop :=
  ∀ s t : State, step s = .next t →
    (t.blk.inBuf = s.blk.inBuf ∨
      (∃ x rest, s.env.rxQueue = x :: rest ∧ t.env.rxQueue = rest ∧ s.blk.fsm ≠ .idle ∧
        t.blk.inBuf = s.blk.inBuf ++ [x]) ∨
      (t.blk.inBuf = [] ∧ s.blk.fsm = .listenMsg ∧ t.blk.fsm = .idle) ∨ t.blk = Block.reset) ∧
    (s.blk.SameLast t.blk ∨
      (s.blk.fsm = .listenMsg ∧ t.blk.fsm = .idle ∧ scanFn s.blk.inBuf = .frame t.blk.lastId t.blk.lastPl) ∨
      (t.blk.lastId = 0x00#8 ∧ t.blk.lastPl = [] ∧ s.blk.fsm = .idle ∧ s.blk.lastId ≠ 0x00#8 ∧
        t.blk.ShowsResult 0x000A0001 s.blk.lastId s.blk.lastPl) ∨ t.blk = Block.reset)

/-- R61: no step both reads and writes the transport; a `TxWrite` is one transaction, added last; the receive queue
loses its oldest byte, while a LISTEN or LISTEN_MESSAGE runs only, or gains bytes at its end. -/
def Obligations.TransportDirectionsAreIndependent : Prop :=
  ∀ s t : State, step s = .next t →
    (t.env.rxQueue = s.env.rxQueue ∨ (t.env.txLog = s.env.txLog ∧ t.env.wire = s.env.wire)) ∧
    (t.env.txLog = s.env.txLog ∨ ∃ r, t.env.txLog = s.env.txLog ++ [r] ∧ r.ok = s.env.txReply.ok) ∧
    ((∃ x, s.env.rxQueue = x :: t.env.rxQueue ∧ s.blk.fsm ≠ .idle) ∨ ∃ bs, t.env.rxQueue = s.env.rxQueue ++ bs)

/-- R86, R19, R105, R120: a step never faults, and is refused only outside what the spec gives a meaning: a release
past the last timestamp, a transport that reports a byte it does not have, reset inside a transaction. -/
def Obligations.StepsAreRefusedOnlyOutsideTheRules : Prop :=
  ∀ s : State, (∀ f, step s ≠ .fault f) ∧
    ∀ r, step s = .refused r →
      (r = .deadlineOverflow ∧ 0 < s.blk.winOp ∧ 2 ^ 64 ≤ s.env.now.toNat + s.blk.winOp.toNat) ∨
      (r = .rxNothingToRead ∧ s.env.rxQueue = [] ∧ 0 < s.env.rxWaiting) ∨
      r = .resetInTransaction
end

