-- ==== Sys2Proof/Laws/State.lean ====
section
/-! SUPPORT. One lemma per field per named update of the state, true by rfl: what each update sets and leaves. -/

namespace Sys2Proof.Machine

@[simp] theorem State.setBlk_blk (s : State) (b : Block) : (s.setBlk b).blk = b := rfl
@[simp] theorem State.setBlk_env (s : State) (b : Block) : (s.setBlk b).env = s.env := rfl
@[simp] theorem State.setEnv_blk (s : State) (e : Env) : (s.setEnv e).blk = s.blk := rfl
@[simp] theorem State.setEnv_env (s : State) (e : Env) : (s.setEnv e).env = e := rfl
@[simp] theorem State.setBlk_setBlk (s : State) (b c : Block) : (s.setBlk b).setBlk c = s.setBlk c := rfl
@[simp] theorem State.setBlk_self (s : State) : s.setBlk s.blk = s := rfl

@[simp] theorem Block.setFsm_fsm (b : Block) (v : Fsm) : (b.setFsm v).fsm = v := rfl
@[simp] theorem Block.setFsm_tokHeld (b : Block) (v : Fsm) : (b.setFsm v).tokHeld = b.tokHeld := rfl
@[simp] theorem Block.setFsm_tokDl (b : Block) (v : Fsm) : (b.setFsm v).tokDl = b.tokDl := rfl
@[simp] theorem Block.setFsm_outBuf (b : Block) (v : Fsm) : (b.setFsm v).outBuf = b.outBuf := rfl
@[simp] theorem Block.setFsm_inBuf (b : Block) (v : Fsm) : (b.setFsm v).inBuf = b.inBuf := rfl
@[simp] theorem Block.setFsm_lastId (b : Block) (v : Fsm) : (b.setFsm v).lastId = b.lastId := rfl
@[simp] theorem Block.setFsm_lastPl (b : Block) (v : Fsm) : (b.setFsm v).lastPl = b.lastPl := rfl
@[simp] theorem Block.setFsm_argId (b : Block) (v : Fsm) : (b.setFsm v).argId = b.argId := rfl
@[simp] theorem Block.setFsm_argWin (b : Block) (v : Fsm) : (b.setFsm v).argWin = b.argWin := rfl
@[simp] theorem Block.setFsm_plLen (b : Block) (v : Fsm) : (b.setFsm v).plLen = b.plLen := rfl
@[simp] theorem Block.setFsm_plData (b : Block) (v : Fsm) : (b.setFsm v).plData = b.plData := rfl
@[simp] theorem Block.setFsm_fatal (b : Block) (v : Fsm) : (b.setFsm v).fatal = b.fatal := rfl
@[simp] theorem Block.setFsm_inOvf (b : Block) (v : Fsm) : (b.setFsm v).inOvf = b.inOvf := rfl
@[simp] theorem Block.setFsm_busErr (b : Block) (v : Fsm) : (b.setFsm v).busErr = b.busErr := rfl
@[simp] theorem Block.setFsm_cmdErr (b : Block) (v : Fsm) : (b.setFsm v).cmdErr = b.cmdErr := rfl
@[simp] theorem Block.setFsm_res (b : Block) (v : Fsm) : (b.setFsm v).res = b.res := rfl

@[simp] theorem Block.setOutBuf_fsm (b : Block) (v : List Byte) : (b.setOutBuf v).fsm = b.fsm := rfl
@[simp] theorem Block.setOutBuf_tokHeld (b : Block) (v : List Byte) : (b.setOutBuf v).tokHeld = b.tokHeld := rfl
@[simp] theorem Block.setOutBuf_tokDl (b : Block) (v : List Byte) : (b.setOutBuf v).tokDl = b.tokDl := rfl
@[simp] theorem Block.setOutBuf_outBuf (b : Block) (v : List Byte) : (b.setOutBuf v).outBuf = v := rfl
@[simp] theorem Block.setOutBuf_inBuf (b : Block) (v : List Byte) : (b.setOutBuf v).inBuf = b.inBuf := rfl
@[simp] theorem Block.setOutBuf_lastId (b : Block) (v : List Byte) : (b.setOutBuf v).lastId = b.lastId := rfl
@[simp] theorem Block.setOutBuf_lastPl (b : Block) (v : List Byte) : (b.setOutBuf v).lastPl = b.lastPl := rfl
@[simp] theorem Block.setOutBuf_argId (b : Block) (v : List Byte) : (b.setOutBuf v).argId = b.argId := rfl
@[simp] theorem Block.setOutBuf_argWin (b : Block) (v : List Byte) : (b.setOutBuf v).argWin = b.argWin := rfl
@[simp] theorem Block.setOutBuf_plLen (b : Block) (v : List Byte) : (b.setOutBuf v).plLen = b.plLen := rfl
@[simp] theorem Block.setOutBuf_plData (b : Block) (v : List Byte) : (b.setOutBuf v).plData = b.plData := rfl
@[simp] theorem Block.setOutBuf_fatal (b : Block) (v : List Byte) : (b.setOutBuf v).fatal = b.fatal := rfl
@[simp] theorem Block.setOutBuf_inOvf (b : Block) (v : List Byte) : (b.setOutBuf v).inOvf = b.inOvf := rfl
@[simp] theorem Block.setOutBuf_busErr (b : Block) (v : List Byte) : (b.setOutBuf v).busErr = b.busErr := rfl
@[simp] theorem Block.setOutBuf_cmdErr (b : Block) (v : List Byte) : (b.setOutBuf v).cmdErr = b.cmdErr := rfl
@[simp] theorem Block.setOutBuf_res (b : Block) (v : List Byte) : (b.setOutBuf v).res = b.res := rfl

@[simp] theorem Block.setInBuf_fsm (b : Block) (v : List Byte) : (b.setInBuf v).fsm = b.fsm := rfl
@[simp] theorem Block.setInBuf_tokHeld (b : Block) (v : List Byte) : (b.setInBuf v).tokHeld = b.tokHeld := rfl
@[simp] theorem Block.setInBuf_tokDl (b : Block) (v : List Byte) : (b.setInBuf v).tokDl = b.tokDl := rfl
@[simp] theorem Block.setInBuf_outBuf (b : Block) (v : List Byte) : (b.setInBuf v).outBuf = b.outBuf := rfl
@[simp] theorem Block.setInBuf_inBuf (b : Block) (v : List Byte) : (b.setInBuf v).inBuf = v := rfl
@[simp] theorem Block.setInBuf_lastId (b : Block) (v : List Byte) : (b.setInBuf v).lastId = b.lastId := rfl
@[simp] theorem Block.setInBuf_lastPl (b : Block) (v : List Byte) : (b.setInBuf v).lastPl = b.lastPl := rfl
@[simp] theorem Block.setInBuf_argId (b : Block) (v : List Byte) : (b.setInBuf v).argId = b.argId := rfl
@[simp] theorem Block.setInBuf_argWin (b : Block) (v : List Byte) : (b.setInBuf v).argWin = b.argWin := rfl
@[simp] theorem Block.setInBuf_plLen (b : Block) (v : List Byte) : (b.setInBuf v).plLen = b.plLen := rfl
@[simp] theorem Block.setInBuf_plData (b : Block) (v : List Byte) : (b.setInBuf v).plData = b.plData := rfl
@[simp] theorem Block.setInBuf_fatal (b : Block) (v : List Byte) : (b.setInBuf v).fatal = b.fatal := rfl
@[simp] theorem Block.setInBuf_inOvf (b : Block) (v : List Byte) : (b.setInBuf v).inOvf = b.inOvf := rfl
@[simp] theorem Block.setInBuf_busErr (b : Block) (v : List Byte) : (b.setInBuf v).busErr = b.busErr := rfl
@[simp] theorem Block.setInBuf_cmdErr (b : Block) (v : List Byte) : (b.setInBuf v).cmdErr = b.cmdErr := rfl
@[simp] theorem Block.setInBuf_res (b : Block) (v : List Byte) : (b.setInBuf v).res = b.res := rfl

@[simp] theorem Block.setArgId_fsm (b : Block) (v : Word) : (b.setArgId v).fsm = b.fsm := rfl
@[simp] theorem Block.setArgId_tokHeld (b : Block) (v : Word) : (b.setArgId v).tokHeld = b.tokHeld := rfl
@[simp] theorem Block.setArgId_tokDl (b : Block) (v : Word) : (b.setArgId v).tokDl = b.tokDl := rfl
@[simp] theorem Block.setArgId_outBuf (b : Block) (v : Word) : (b.setArgId v).outBuf = b.outBuf := rfl
@[simp] theorem Block.setArgId_inBuf (b : Block) (v : Word) : (b.setArgId v).inBuf = b.inBuf := rfl
@[simp] theorem Block.setArgId_lastId (b : Block) (v : Word) : (b.setArgId v).lastId = b.lastId := rfl
@[simp] theorem Block.setArgId_lastPl (b : Block) (v : Word) : (b.setArgId v).lastPl = b.lastPl := rfl
@[simp] theorem Block.setArgId_argId (b : Block) (v : Word) : (b.setArgId v).argId = v := rfl
@[simp] theorem Block.setArgId_argWin (b : Block) (v : Word) : (b.setArgId v).argWin = b.argWin := rfl
@[simp] theorem Block.setArgId_plLen (b : Block) (v : Word) : (b.setArgId v).plLen = b.plLen := rfl
@[simp] theorem Block.setArgId_plData (b : Block) (v : Word) : (b.setArgId v).plData = b.plData := rfl
@[simp] theorem Block.setArgId_fatal (b : Block) (v : Word) : (b.setArgId v).fatal = b.fatal := rfl
@[simp] theorem Block.setArgId_inOvf (b : Block) (v : Word) : (b.setArgId v).inOvf = b.inOvf := rfl
@[simp] theorem Block.setArgId_busErr (b : Block) (v : Word) : (b.setArgId v).busErr = b.busErr := rfl
@[simp] theorem Block.setArgId_cmdErr (b : Block) (v : Word) : (b.setArgId v).cmdErr = b.cmdErr := rfl
@[simp] theorem Block.setArgId_res (b : Block) (v : Word) : (b.setArgId v).res = b.res := rfl

@[simp] theorem Block.setArgWin_fsm (b : Block) (v : Word) : (b.setArgWin v).fsm = b.fsm := rfl
@[simp] theorem Block.setArgWin_tokHeld (b : Block) (v : Word) : (b.setArgWin v).tokHeld = b.tokHeld := rfl
@[simp] theorem Block.setArgWin_tokDl (b : Block) (v : Word) : (b.setArgWin v).tokDl = b.tokDl := rfl
@[simp] theorem Block.setArgWin_outBuf (b : Block) (v : Word) : (b.setArgWin v).outBuf = b.outBuf := rfl
@[simp] theorem Block.setArgWin_inBuf (b : Block) (v : Word) : (b.setArgWin v).inBuf = b.inBuf := rfl
@[simp] theorem Block.setArgWin_lastId (b : Block) (v : Word) : (b.setArgWin v).lastId = b.lastId := rfl
@[simp] theorem Block.setArgWin_lastPl (b : Block) (v : Word) : (b.setArgWin v).lastPl = b.lastPl := rfl
@[simp] theorem Block.setArgWin_argId (b : Block) (v : Word) : (b.setArgWin v).argId = b.argId := rfl
@[simp] theorem Block.setArgWin_argWin (b : Block) (v : Word) : (b.setArgWin v).argWin = v := rfl
@[simp] theorem Block.setArgWin_plLen (b : Block) (v : Word) : (b.setArgWin v).plLen = b.plLen := rfl
@[simp] theorem Block.setArgWin_plData (b : Block) (v : Word) : (b.setArgWin v).plData = b.plData := rfl
@[simp] theorem Block.setArgWin_fatal (b : Block) (v : Word) : (b.setArgWin v).fatal = b.fatal := rfl
@[simp] theorem Block.setArgWin_inOvf (b : Block) (v : Word) : (b.setArgWin v).inOvf = b.inOvf := rfl
@[simp] theorem Block.setArgWin_busErr (b : Block) (v : Word) : (b.setArgWin v).busErr = b.busErr := rfl
@[simp] theorem Block.setArgWin_cmdErr (b : Block) (v : Word) : (b.setArgWin v).cmdErr = b.cmdErr := rfl
@[simp] theorem Block.setArgWin_res (b : Block) (v : Word) : (b.setArgWin v).res = b.res := rfl

@[simp] theorem Block.setPlLen_fsm (b : Block) (v : Word) : (b.setPlLen v).fsm = b.fsm := rfl
@[simp] theorem Block.setPlLen_tokHeld (b : Block) (v : Word) : (b.setPlLen v).tokHeld = b.tokHeld := rfl
@[simp] theorem Block.setPlLen_tokDl (b : Block) (v : Word) : (b.setPlLen v).tokDl = b.tokDl := rfl
@[simp] theorem Block.setPlLen_outBuf (b : Block) (v : Word) : (b.setPlLen v).outBuf = b.outBuf := rfl
@[simp] theorem Block.setPlLen_inBuf (b : Block) (v : Word) : (b.setPlLen v).inBuf = b.inBuf := rfl
@[simp] theorem Block.setPlLen_lastId (b : Block) (v : Word) : (b.setPlLen v).lastId = b.lastId := rfl
@[simp] theorem Block.setPlLen_lastPl (b : Block) (v : Word) : (b.setPlLen v).lastPl = b.lastPl := rfl
@[simp] theorem Block.setPlLen_argId (b : Block) (v : Word) : (b.setPlLen v).argId = b.argId := rfl
@[simp] theorem Block.setPlLen_argWin (b : Block) (v : Word) : (b.setPlLen v).argWin = b.argWin := rfl
@[simp] theorem Block.setPlLen_plLen (b : Block) (v : Word) : (b.setPlLen v).plLen = v := rfl
@[simp] theorem Block.setPlLen_plData (b : Block) (v : Word) : (b.setPlLen v).plData = b.plData := rfl
@[simp] theorem Block.setPlLen_fatal (b : Block) (v : Word) : (b.setPlLen v).fatal = b.fatal := rfl
@[simp] theorem Block.setPlLen_inOvf (b : Block) (v : Word) : (b.setPlLen v).inOvf = b.inOvf := rfl
@[simp] theorem Block.setPlLen_busErr (b : Block) (v : Word) : (b.setPlLen v).busErr = b.busErr := rfl
@[simp] theorem Block.setPlLen_cmdErr (b : Block) (v : Word) : (b.setPlLen v).cmdErr = b.cmdErr := rfl
@[simp] theorem Block.setPlLen_res (b : Block) (v : Word) : (b.setPlLen v).res = b.res := rfl

@[simp] theorem Block.setPlData_fsm (b : Block) (v : Vector Word Config.plCap) : (b.setPlData v).fsm = b.fsm := rfl
@[simp] theorem Block.setPlData_tokHeld (b : Block) (v : Vector Word Config.plCap) : (b.setPlData v).tokHeld = b.tokHeld := rfl
@[simp] theorem Block.setPlData_tokDl (b : Block) (v : Vector Word Config.plCap) : (b.setPlData v).tokDl = b.tokDl := rfl
@[simp] theorem Block.setPlData_outBuf (b : Block) (v : Vector Word Config.plCap) : (b.setPlData v).outBuf = b.outBuf := rfl
@[simp] theorem Block.setPlData_inBuf (b : Block) (v : Vector Word Config.plCap) : (b.setPlData v).inBuf = b.inBuf := rfl
@[simp] theorem Block.setPlData_lastId (b : Block) (v : Vector Word Config.plCap) : (b.setPlData v).lastId = b.lastId := rfl
@[simp] theorem Block.setPlData_lastPl (b : Block) (v : Vector Word Config.plCap) : (b.setPlData v).lastPl = b.lastPl := rfl
@[simp] theorem Block.setPlData_argId (b : Block) (v : Vector Word Config.plCap) : (b.setPlData v).argId = b.argId := rfl
@[simp] theorem Block.setPlData_argWin (b : Block) (v : Vector Word Config.plCap) : (b.setPlData v).argWin = b.argWin := rfl
@[simp] theorem Block.setPlData_plLen (b : Block) (v : Vector Word Config.plCap) : (b.setPlData v).plLen = b.plLen := rfl
@[simp] theorem Block.setPlData_plData (b : Block) (v : Vector Word Config.plCap) : (b.setPlData v).plData = v := rfl
@[simp] theorem Block.setPlData_fatal (b : Block) (v : Vector Word Config.plCap) : (b.setPlData v).fatal = b.fatal := rfl
@[simp] theorem Block.setPlData_inOvf (b : Block) (v : Vector Word Config.plCap) : (b.setPlData v).inOvf = b.inOvf := rfl
@[simp] theorem Block.setPlData_busErr (b : Block) (v : Vector Word Config.plCap) : (b.setPlData v).busErr = b.busErr := rfl
@[simp] theorem Block.setPlData_cmdErr (b : Block) (v : Vector Word Config.plCap) : (b.setPlData v).cmdErr = b.cmdErr := rfl
@[simp] theorem Block.setPlData_res (b : Block) (v : Vector Word Config.plCap) : (b.setPlData v).res = b.res := rfl

@[simp] theorem Block.setFatal_fsm (b : Block) (v : Bool) : (b.setFatal v).fsm = b.fsm := rfl
@[simp] theorem Block.setFatal_tokHeld (b : Block) (v : Bool) : (b.setFatal v).tokHeld = b.tokHeld := rfl
@[simp] theorem Block.setFatal_tokDl (b : Block) (v : Bool) : (b.setFatal v).tokDl = b.tokDl := rfl
@[simp] theorem Block.setFatal_outBuf (b : Block) (v : Bool) : (b.setFatal v).outBuf = b.outBuf := rfl
@[simp] theorem Block.setFatal_inBuf (b : Block) (v : Bool) : (b.setFatal v).inBuf = b.inBuf := rfl
@[simp] theorem Block.setFatal_lastId (b : Block) (v : Bool) : (b.setFatal v).lastId = b.lastId := rfl
@[simp] theorem Block.setFatal_lastPl (b : Block) (v : Bool) : (b.setFatal v).lastPl = b.lastPl := rfl
@[simp] theorem Block.setFatal_argId (b : Block) (v : Bool) : (b.setFatal v).argId = b.argId := rfl
@[simp] theorem Block.setFatal_argWin (b : Block) (v : Bool) : (b.setFatal v).argWin = b.argWin := rfl
@[simp] theorem Block.setFatal_plLen (b : Block) (v : Bool) : (b.setFatal v).plLen = b.plLen := rfl
@[simp] theorem Block.setFatal_plData (b : Block) (v : Bool) : (b.setFatal v).plData = b.plData := rfl
@[simp] theorem Block.setFatal_fatal (b : Block) (v : Bool) : (b.setFatal v).fatal = v := rfl
@[simp] theorem Block.setFatal_inOvf (b : Block) (v : Bool) : (b.setFatal v).inOvf = b.inOvf := rfl
@[simp] theorem Block.setFatal_busErr (b : Block) (v : Bool) : (b.setFatal v).busErr = b.busErr := rfl
@[simp] theorem Block.setFatal_cmdErr (b : Block) (v : Bool) : (b.setFatal v).cmdErr = b.cmdErr := rfl
@[simp] theorem Block.setFatal_res (b : Block) (v : Bool) : (b.setFatal v).res = b.res := rfl

@[simp] theorem Block.setInOvf_fsm (b : Block) (v : Bool) : (b.setInOvf v).fsm = b.fsm := rfl
@[simp] theorem Block.setInOvf_tokHeld (b : Block) (v : Bool) : (b.setInOvf v).tokHeld = b.tokHeld := rfl
@[simp] theorem Block.setInOvf_tokDl (b : Block) (v : Bool) : (b.setInOvf v).tokDl = b.tokDl := rfl
@[simp] theorem Block.setInOvf_outBuf (b : Block) (v : Bool) : (b.setInOvf v).outBuf = b.outBuf := rfl
@[simp] theorem Block.setInOvf_inBuf (b : Block) (v : Bool) : (b.setInOvf v).inBuf = b.inBuf := rfl
@[simp] theorem Block.setInOvf_lastId (b : Block) (v : Bool) : (b.setInOvf v).lastId = b.lastId := rfl
@[simp] theorem Block.setInOvf_lastPl (b : Block) (v : Bool) : (b.setInOvf v).lastPl = b.lastPl := rfl
@[simp] theorem Block.setInOvf_argId (b : Block) (v : Bool) : (b.setInOvf v).argId = b.argId := rfl
@[simp] theorem Block.setInOvf_argWin (b : Block) (v : Bool) : (b.setInOvf v).argWin = b.argWin := rfl
@[simp] theorem Block.setInOvf_plLen (b : Block) (v : Bool) : (b.setInOvf v).plLen = b.plLen := rfl
@[simp] theorem Block.setInOvf_plData (b : Block) (v : Bool) : (b.setInOvf v).plData = b.plData := rfl
@[simp] theorem Block.setInOvf_fatal (b : Block) (v : Bool) : (b.setInOvf v).fatal = b.fatal := rfl
@[simp] theorem Block.setInOvf_inOvf (b : Block) (v : Bool) : (b.setInOvf v).inOvf = v := rfl
@[simp] theorem Block.setInOvf_busErr (b : Block) (v : Bool) : (b.setInOvf v).busErr = b.busErr := rfl
@[simp] theorem Block.setInOvf_cmdErr (b : Block) (v : Bool) : (b.setInOvf v).cmdErr = b.cmdErr := rfl
@[simp] theorem Block.setInOvf_res (b : Block) (v : Bool) : (b.setInOvf v).res = b.res := rfl

@[simp] theorem Block.setBusErr_fsm (b : Block) (v : Bool) : (b.setBusErr v).fsm = b.fsm := rfl
@[simp] theorem Block.setBusErr_tokHeld (b : Block) (v : Bool) : (b.setBusErr v).tokHeld = b.tokHeld := rfl
@[simp] theorem Block.setBusErr_tokDl (b : Block) (v : Bool) : (b.setBusErr v).tokDl = b.tokDl := rfl
@[simp] theorem Block.setBusErr_outBuf (b : Block) (v : Bool) : (b.setBusErr v).outBuf = b.outBuf := rfl
@[simp] theorem Block.setBusErr_inBuf (b : Block) (v : Bool) : (b.setBusErr v).inBuf = b.inBuf := rfl
@[simp] theorem Block.setBusErr_lastId (b : Block) (v : Bool) : (b.setBusErr v).lastId = b.lastId := rfl
@[simp] theorem Block.setBusErr_lastPl (b : Block) (v : Bool) : (b.setBusErr v).lastPl = b.lastPl := rfl
@[simp] theorem Block.setBusErr_argId (b : Block) (v : Bool) : (b.setBusErr v).argId = b.argId := rfl
@[simp] theorem Block.setBusErr_argWin (b : Block) (v : Bool) : (b.setBusErr v).argWin = b.argWin := rfl
@[simp] theorem Block.setBusErr_plLen (b : Block) (v : Bool) : (b.setBusErr v).plLen = b.plLen := rfl
@[simp] theorem Block.setBusErr_plData (b : Block) (v : Bool) : (b.setBusErr v).plData = b.plData := rfl
@[simp] theorem Block.setBusErr_fatal (b : Block) (v : Bool) : (b.setBusErr v).fatal = b.fatal := rfl
@[simp] theorem Block.setBusErr_inOvf (b : Block) (v : Bool) : (b.setBusErr v).inOvf = b.inOvf := rfl
@[simp] theorem Block.setBusErr_busErr (b : Block) (v : Bool) : (b.setBusErr v).busErr = v := rfl
@[simp] theorem Block.setBusErr_cmdErr (b : Block) (v : Bool) : (b.setBusErr v).cmdErr = b.cmdErr := rfl
@[simp] theorem Block.setBusErr_res (b : Block) (v : Bool) : (b.setBusErr v).res = b.res := rfl

@[simp] theorem Block.setCmdErr_fsm (b : Block) (v : Bool) : (b.setCmdErr v).fsm = b.fsm := rfl
@[simp] theorem Block.setCmdErr_tokHeld (b : Block) (v : Bool) : (b.setCmdErr v).tokHeld = b.tokHeld := rfl
@[simp] theorem Block.setCmdErr_tokDl (b : Block) (v : Bool) : (b.setCmdErr v).tokDl = b.tokDl := rfl
@[simp] theorem Block.setCmdErr_outBuf (b : Block) (v : Bool) : (b.setCmdErr v).outBuf = b.outBuf := rfl
@[simp] theorem Block.setCmdErr_inBuf (b : Block) (v : Bool) : (b.setCmdErr v).inBuf = b.inBuf := rfl
@[simp] theorem Block.setCmdErr_lastId (b : Block) (v : Bool) : (b.setCmdErr v).lastId = b.lastId := rfl
@[simp] theorem Block.setCmdErr_lastPl (b : Block) (v : Bool) : (b.setCmdErr v).lastPl = b.lastPl := rfl
@[simp] theorem Block.setCmdErr_argId (b : Block) (v : Bool) : (b.setCmdErr v).argId = b.argId := rfl
@[simp] theorem Block.setCmdErr_argWin (b : Block) (v : Bool) : (b.setCmdErr v).argWin = b.argWin := rfl
@[simp] theorem Block.setCmdErr_plLen (b : Block) (v : Bool) : (b.setCmdErr v).plLen = b.plLen := rfl
@[simp] theorem Block.setCmdErr_plData (b : Block) (v : Bool) : (b.setCmdErr v).plData = b.plData := rfl
@[simp] theorem Block.setCmdErr_fatal (b : Block) (v : Bool) : (b.setCmdErr v).fatal = b.fatal := rfl
@[simp] theorem Block.setCmdErr_inOvf (b : Block) (v : Bool) : (b.setCmdErr v).inOvf = b.inOvf := rfl
@[simp] theorem Block.setCmdErr_busErr (b : Block) (v : Bool) : (b.setCmdErr v).busErr = b.busErr := rfl
@[simp] theorem Block.setCmdErr_cmdErr (b : Block) (v : Bool) : (b.setCmdErr v).cmdErr = v := rfl
@[simp] theorem Block.setCmdErr_res (b : Block) (v : Bool) : (b.setCmdErr v).res = b.res := rfl

@[simp] theorem Block.setRes_fsm (b : Block) (v : Result) : (b.setRes v).fsm = b.fsm := rfl
@[simp] theorem Block.setRes_tokHeld (b : Block) (v : Result) : (b.setRes v).tokHeld = b.tokHeld := rfl
@[simp] theorem Block.setRes_tokDl (b : Block) (v : Result) : (b.setRes v).tokDl = b.tokDl := rfl
@[simp] theorem Block.setRes_outBuf (b : Block) (v : Result) : (b.setRes v).outBuf = b.outBuf := rfl
@[simp] theorem Block.setRes_inBuf (b : Block) (v : Result) : (b.setRes v).inBuf = b.inBuf := rfl
@[simp] theorem Block.setRes_lastId (b : Block) (v : Result) : (b.setRes v).lastId = b.lastId := rfl
@[simp] theorem Block.setRes_lastPl (b : Block) (v : Result) : (b.setRes v).lastPl = b.lastPl := rfl
@[simp] theorem Block.setRes_argId (b : Block) (v : Result) : (b.setRes v).argId = b.argId := rfl
@[simp] theorem Block.setRes_argWin (b : Block) (v : Result) : (b.setRes v).argWin = b.argWin := rfl
@[simp] theorem Block.setRes_plLen (b : Block) (v : Result) : (b.setRes v).plLen = b.plLen := rfl
@[simp] theorem Block.setRes_plData (b : Block) (v : Result) : (b.setRes v).plData = b.plData := rfl
@[simp] theorem Block.setRes_fatal (b : Block) (v : Result) : (b.setRes v).fatal = b.fatal := rfl
@[simp] theorem Block.setRes_inOvf (b : Block) (v : Result) : (b.setRes v).inOvf = b.inOvf := rfl
@[simp] theorem Block.setRes_busErr (b : Block) (v : Result) : (b.setRes v).busErr = b.busErr := rfl
@[simp] theorem Block.setRes_cmdErr (b : Block) (v : Result) : (b.setRes v).cmdErr = b.cmdErr := rfl
@[simp] theorem Block.setRes_res (b : Block) (v : Result) : (b.setRes v).res = v := rfl

@[simp] theorem Block.setToken_fsm (b : Block) (h : Bool) (d : Timestamp) : (b.setToken h d).fsm = b.fsm := rfl
@[simp] theorem Block.setToken_tokHeld (b : Block) (h : Bool) (d : Timestamp) : (b.setToken h d).tokHeld = h := rfl
@[simp] theorem Block.setToken_tokDl (b : Block) (h : Bool) (d : Timestamp) : (b.setToken h d).tokDl = d := rfl
@[simp] theorem Block.setToken_outBuf (b : Block) (h : Bool) (d : Timestamp) : (b.setToken h d).outBuf = b.outBuf := rfl
@[simp] theorem Block.setToken_inBuf (b : Block) (h : Bool) (d : Timestamp) : (b.setToken h d).inBuf = b.inBuf := rfl
@[simp] theorem Block.setToken_lastId (b : Block) (h : Bool) (d : Timestamp) : (b.setToken h d).lastId = b.lastId := rfl
@[simp] theorem Block.setToken_lastPl (b : Block) (h : Bool) (d : Timestamp) : (b.setToken h d).lastPl = b.lastPl := rfl
@[simp] theorem Block.setToken_argId (b : Block) (h : Bool) (d : Timestamp) : (b.setToken h d).argId = b.argId := rfl
@[simp] theorem Block.setToken_argWin (b : Block) (h : Bool) (d : Timestamp) : (b.setToken h d).argWin = b.argWin := rfl
@[simp] theorem Block.setToken_plLen (b : Block) (h : Bool) (d : Timestamp) : (b.setToken h d).plLen = b.plLen := rfl
@[simp] theorem Block.setToken_plData (b : Block) (h : Bool) (d : Timestamp) : (b.setToken h d).plData = b.plData := rfl
@[simp] theorem Block.setToken_fatal (b : Block) (h : Bool) (d : Timestamp) : (b.setToken h d).fatal = b.fatal := rfl
@[simp] theorem Block.setToken_inOvf (b : Block) (h : Bool) (d : Timestamp) : (b.setToken h d).inOvf = b.inOvf := rfl
@[simp] theorem Block.setToken_busErr (b : Block) (h : Bool) (d : Timestamp) : (b.setToken h d).busErr = b.busErr := rfl
@[simp] theorem Block.setToken_cmdErr (b : Block) (h : Bool) (d : Timestamp) : (b.setToken h d).cmdErr = b.cmdErr := rfl
@[simp] theorem Block.setToken_res (b : Block) (h : Bool) (d : Timestamp) : (b.setToken h d).res = b.res := rfl

@[simp] theorem Block.setLast_fsm (b : Block) (i : Byte) (p : List Byte) : (b.setLast i p).fsm = b.fsm := rfl
@[simp] theorem Block.setLast_tokHeld (b : Block) (i : Byte) (p : List Byte) : (b.setLast i p).tokHeld = b.tokHeld := rfl
@[simp] theorem Block.setLast_tokDl (b : Block) (i : Byte) (p : List Byte) : (b.setLast i p).tokDl = b.tokDl := rfl
@[simp] theorem Block.setLast_outBuf (b : Block) (i : Byte) (p : List Byte) : (b.setLast i p).outBuf = b.outBuf := rfl
@[simp] theorem Block.setLast_inBuf (b : Block) (i : Byte) (p : List Byte) : (b.setLast i p).inBuf = b.inBuf := rfl
@[simp] theorem Block.setLast_lastId (b : Block) (i : Byte) (p : List Byte) : (b.setLast i p).lastId = i := rfl
@[simp] theorem Block.setLast_lastPl (b : Block) (i : Byte) (p : List Byte) : (b.setLast i p).lastPl = p := rfl
@[simp] theorem Block.setLast_argId (b : Block) (i : Byte) (p : List Byte) : (b.setLast i p).argId = b.argId := rfl
@[simp] theorem Block.setLast_argWin (b : Block) (i : Byte) (p : List Byte) : (b.setLast i p).argWin = b.argWin := rfl
@[simp] theorem Block.setLast_plLen (b : Block) (i : Byte) (p : List Byte) : (b.setLast i p).plLen = b.plLen := rfl
@[simp] theorem Block.setLast_plData (b : Block) (i : Byte) (p : List Byte) : (b.setLast i p).plData = b.plData := rfl
@[simp] theorem Block.setLast_fatal (b : Block) (i : Byte) (p : List Byte) : (b.setLast i p).fatal = b.fatal := rfl
@[simp] theorem Block.setLast_inOvf (b : Block) (i : Byte) (p : List Byte) : (b.setLast i p).inOvf = b.inOvf := rfl
@[simp] theorem Block.setLast_busErr (b : Block) (i : Byte) (p : List Byte) : (b.setLast i p).busErr = b.busErr := rfl
@[simp] theorem Block.setLast_cmdErr (b : Block) (i : Byte) (p : List Byte) : (b.setLast i p).cmdErr = b.cmdErr := rfl
@[simp] theorem Block.setLast_res (b : Block) (i : Byte) (p : List Byte) : (b.setLast i p).res = b.res := rfl

end Sys2Proof.Machine
end

