-- ==== Sys2Proof/Laws/Ops.lean ====
section
/-! SUPPORT. One lemma per shared operation: everything it can do, for later proofs to cite instead of unfolding it. -/

namespace Sys2Proof.Machine

/-! ## Arbiter -/

/-- A release changes nothing for `d <= 0`, starts the window `t + d` for `d > 0`, and is refused exactly where that
deadline does not fit (R86). -/
theorem Block.releaseFn_cases (b : Block) (d : Int) (t : Timestamp) :
    (d ≤ 0 ∧ b.releaseFn d t = some b) ∨
      (0 < d ∧ t.toNat + d.toNat < 2 ^ 64 ∧
        b.releaseFn d t = some (b.setToken false (t + BitVec.ofNat 64 d.toNat))) ∨
        (0 < d ∧ 2 ^ 64 ≤ t.toNat + d.toNat ∧ b.releaseFn d t = none) := by
  unfold Block.releaseFn deadlineFits
  by_cases hd : 0 < d
  · by_cases hf : t.toNat + d.toNat < 2 ^ Config.tsWidth
    · exact .inr (.inl ⟨hd, hf, by simp only [hd, hf, decide_true, if_true]⟩)
    · exact .inr (.inr ⟨hd, Nat.le_of_not_lt hf, by simp only [hd, hf, decide_false, if_true, Bool.false_eq_true, if_false]⟩)
  · exact .inl ⟨by omega, by simp only [hd, if_false]⟩

/-- The deadline of a release that fits is `t + d` exactly (R86). -/
theorem deadline_toNat {d : Int} {t : Timestamp} (h : t.toNat + d.toNat < 2 ^ 64) :
    (t + BitVec.ofNat 64 d.toNat).toNat = t.toNat + d.toNat := by
  rw [BitVec.toNat_add, BitVec.toNat_ofNat]; omega

/-- A refresh returns an expired token and changes nothing else (R87). -/
theorem Block.refreshFn_cases (b : Block) (t : Timestamp) :
    (b.tokHeld = false ∧ b.tokDl.toNat < t.toNat ∧ b.refreshFn t = b.setToken true b.tokDl) ∨
      ((b.tokHeld = true ∨ t.toNat ≤ b.tokDl.toNat) ∧ b.refreshFn t = b) := by
  unfold Block.refreshFn
  by_cases h : b.tokHeld = false ∧ b.tokDl.toNat < t.toNat
  · exact .inl ⟨h.1, h.2, if_pos h⟩
  · refine .inr ⟨?_, if_neg h⟩
    cases hb : b.tokHeld
    · exact .inr (Nat.le_of_not_lt fun hl => h ⟨hb, hl⟩)
    · exact .inl rfl

@[simp] theorem Block.refreshFn_tokDl (b : Block) (t : Timestamp) : (b.refreshFn t).tokDl = b.tokDl := by
  obtain ⟨-, -, h⟩ | ⟨-, h⟩ := b.refreshFn_cases t <;> simp [h]

/-- After a refresh the token is held exactly when it was, or when its deadline has passed (R87). -/
theorem Block.refreshFn_tokHeld (b : Block) (t : Timestamp) :
    (b.refreshFn t).tokHeld = true ↔ b.tokHeld = true ∨ b.tokDl.toNat < t.toNat := by
  obtain ⟨h1, h2, h⟩ | ⟨h1, h⟩ := b.refreshFn_cases t
  · simp [h, h2]
  · rw [h]
    constructor
    · exact .inl
    · rintro (h2 | h2)
      · exact h2
      · exact h1.resolve_right (by omega)

/-! ## Transport -/

/-- `RxRead()` takes the oldest byte of the queue and nothing else (R19). -/
theorem Env.rxRead_eq_some {e e' : Env} {x : Byte} :
    e.rxRead = some (x, e') ↔ e.rxQueue = x :: e'.rxQueue ∧ e' = { e with rxQueue := e'.rxQueue } := by
  unfold Env.rxRead
  cases hq : e.rxQueue with
  | nil => simp
  | cons y ys =>
    simp only [Option.some.injEq, Prod.mk.injEq, List.cons.injEq]
    constructor
    · rintro ⟨rfl, rfl⟩; exact ⟨⟨rfl, rfl⟩, rfl⟩
    · rintro ⟨⟨rfl, h⟩, h'⟩; exact ⟨rfl, by rw [h']; simp [h]⟩

/-- `TxWrite(seq)` answers what the transport answers, records the whole `seq`, and puts a prefix on the wire (R19). -/
theorem Env.txWrite_eq (e : Env) (seq : List Byte) :
    e.txWrite seq =
      (e.txReply.ok,
        { e with txLog := e.txLog ++ [{ seq := seq, ok := e.txReply.ok }], wire := e.wire ++ onWire e.txReply seq }) :=
  rfl

/-- What reaches the wire is a prefix of what was handed over (spec/93 section 1). -/
theorem onWire_prefix (r : TxReply) (seq : List Byte) : onWire r seq <+: seq := by
  unfold onWire
  split
  · exact List.prefix_refl _
  · exact List.take_prefix _ _

/-- A read byte is appended where there is room, else dropped (R26). -/
theorem pushInbound_cases (cap : Nat) (buf : List Byte) (x : Byte) :
    (buf.length < cap ∧ pushInbound cap buf x = (buf ++ [x], false)) ∨
      (cap ≤ buf.length ∧ pushInbound cap buf x = (buf, true)) := by
  unfold pushInbound
  by_cases h : buf.length < cap
  · exact .inl ⟨h, if_pos h⟩
  · exact .inr ⟨Nat.le_of_not_lt h, if_neg h⟩

/-- Draining a byte sets `inbuf` or `IN_OVF` and nothing else (R26, R98). -/
theorem Block.drain_cases (b : Block) (x : Byte) :
    (b.inBuf.length < Config.inCap ∧ b.drain x = b.setInBuf (b.inBuf ++ [x])) ∨
      (Config.inCap ≤ b.inBuf.length ∧ b.drain x = b.setInOvf true) := by
  unfold Block.drain
  obtain ⟨h, hp⟩ | ⟨h, hp⟩ := pushInbound_cases Config.inCap b.inBuf x
  · exact .inl ⟨h, by rw [hp]; rfl⟩
  · exact .inr ⟨h, by rw [hp]; rfl⟩

/-! ## Commands -/

/-- A send attempt is denied, faults, sends, or is refused after the transport answered ok (R93). -/
theorem transmitFn_cases (d : Int) (t : Timestamp) (s : State) :
    ((s.blk.refreshFn t).tokHeld = false ∧
        transmitFn d t s = some (⟨false, .denied, []⟩, ⟨(s.blk.refreshFn t).setOutBuf [], s.env⟩)) ∨
      ((s.blk.refreshFn t).tokHeld = true ∧ s.env.txReply.ok = false ∧
        transmitFn d t s =
          some (⟨false, .txFault, []⟩,
            ⟨((s.blk.refreshFn t).setFatal true).setOutBuf [], (s.env.txWrite (s.blk.refreshFn t).outBuf).2⟩)) ∨
        (∃ b, (s.blk.refreshFn t).tokHeld = true ∧ s.env.txReply.ok = true ∧
          (s.blk.refreshFn t).releaseFn d t = some b ∧
          transmitFn d t s =
            some (⟨true, .none, (s.blk.refreshFn t).outBuf⟩,
              ⟨b.setOutBuf [], (s.env.txWrite (s.blk.refreshFn t).outBuf).2⟩)) ∨
          ((s.blk.refreshFn t).tokHeld = true ∧ s.env.txReply.ok = true ∧
            (s.blk.refreshFn t).releaseFn d t = none ∧ transmitFn d t s = none) := by
  unfold transmitFn
  cases hh : (s.blk.refreshFn t).tokHeld
  · exact .inl ⟨rfl, by simp [hh]⟩
  · cases hr : s.env.txReply.ok
    · exact .inr (.inl ⟨rfl, rfl, by simp [hh, Env.txWrite_eq, hr]⟩)
    · cases hf : (s.blk.refreshFn t).releaseFn d t with
      | none => exact .inr (.inr (.inr ⟨rfl, rfl, rfl, by simp [hh, Env.txWrite_eq, hr, hf]⟩))
      | some b => exact .inr (.inr (.inl ⟨b, rfl, rfl, rfl, by simp [hh, Env.txWrite_eq, hr, hf]⟩))

/-- A listen iteration completes the loop, drains a byte, meets a transport outside its contract, or spins (R98). -/
theorem listenIteration_cases (s : State) :
    ((s.blk.refreshFn s.env.now).tokHeld = true ∧ s.env.rxWaiting = 0 ∧
        listenIteration s = .next (s.setBlk (s.blk.refreshFn s.env.now).listenComplete)) ∨
      (∃ x e, 0 < s.env.rxWaiting ∧ s.env.rxRead = some (x, e) ∧
        listenIteration s = .next ⟨(s.blk.refreshFn s.env.now).drain x, e⟩) ∨
        (0 < s.env.rxWaiting ∧ s.env.rxQueue = [] ∧ listenIteration s = .refused .rxNothingToRead) ∨
          ((s.blk.refreshFn s.env.now).tokHeld = false ∧ s.env.rxWaiting = 0 ∧
            listenIteration s = .next (s.setBlk (s.blk.refreshFn s.env.now))) := by
  unfold listenIteration
  rcases Nat.eq_zero_or_pos s.env.rxWaiting with hw | hw
  · cases hh : (s.blk.refreshFn s.env.now).tokHeld
    · exact .inr (.inr (.inr ⟨rfl, hw, by simp [hh, hw]⟩))
    · exact .inl ⟨rfl, hw, by simp [hh, hw]⟩
  · have hne : s.env.rxWaiting ≠ 0 := by omega
    cases hq : s.env.rxQueue with
    | nil => exact .inr (.inr (.inl ⟨hw, rfl, by simp [hne, hw, Env.rxRead, hq]⟩))
    | cons y ys =>
      have hr : s.env.rxRead = some (y, { s.env with rxQueue := ys }) := by simp [Env.rxRead, hq]
      exact .inr (.inl ⟨y, _, hw, hr, by simp [hne, hw, hr]⟩)

/-- The block's turn is an iteration while a LISTEN or LISTEN_MESSAGE runs and reset is released (R18, R98). -/
theorem blockTurn_cases (s : State) :
    ((s.env.resetAsserted = true ∨ s.blk.fsm = .idle) ∧ blockTurn s = .next s) ∨
      (s.env.resetAsserted = false ∧ s.blk.fsm ≠ .idle ∧ blockTurn s = listenIteration s) := by
  unfold blockTurn
  by_cases h : s.env.resetAsserted = true ∨ s.blk.fsm = .idle
  · exact .inl ⟨h, if_pos h⟩
  · have h' := not_or.mp h
    exact .inr ⟨by simpa using h'.1, h'.2, if_neg h⟩

/-! ## The command gate -/

/-- A `CMD` write is rejected, or executes the command its word selects (R107). -/
theorem issue_cases (w : Word) (s : State) :
    ((s.blk.closed = true ∨ ∃ e, decode w = .error e) ∧ issue w s = .next (s.setBlk s.blk.reject)) ∨
      (∃ i, s.blk.fatal = false ∧ s.blk.fsm = .idle ∧ decode w = .ok i ∧ issue w s = exec i s) := by
  unfold issue
  cases hc : s.blk.closed
  · have hc' : s.blk.fatal = false ∧ s.blk.fsm = .idle := by
      simpa [Block.closed, Block.busy] using hc
    cases hd : decode w with
    | error e => exact .inl ⟨.inr ⟨e, rfl⟩, by simp⟩
    | ok i => exact .inr ⟨i, hc'.1, hc'.2, rfl, by simp⟩
  · exact .inl ⟨.inl rfl, by simp⟩

end Sys2Proof.Machine
end

