-- ==== Sys2Proof/Laws/Step.lean ====
section
/-! SUPPORT. What one step is, by the agent whose turn it is; later proofs cite these instead of unfolding `step`. -/

namespace Sys2Proof.Machine

/-- A step runs the turn the schedule lists next. -/
theorem step_of_turn {s s' : State} {t : Turn} (h : TurnNext s t s') : step s = runTurn t s' := by
  unfold step takeTurn
  rw [h.turn]
  simp only [← h.rest]

/-- A run of one step more takes that step first. -/
theorem runSteps_succ (k : Nat) {s t : State} (h : step s = .next t) : runSteps (k + 1) s = runSteps k t := by
  rw [runSteps, h]

/-- A host's turn serves the next operation of its program. -/
theorem step_of_host {s s' : State} {op : HostOp} (h : HostNext s op s') : step s = serveOp op s' := by
  obtain ⟨turn, running, hop, rest⟩ := h
  generalize s'.env.turns = ts at turn rest
  generalize s'.env.hostOps = ops at hop rest
  subst rest
  obtain ⟨b, e⟩ := s
  cases e
  cases turn
  cases running
  cases hop
  rfl

/-- A host's write to `CMD` is the command gate's (R38). -/
theorem step_of_cmdWrite {s s' : State} {w : Word} (h : HostWrites s 0x000#14 w s') : step s = issue w s' := by
  rw [step_of_host h]; rfl

/-- `withFetchWord` makes the host's write of the word to `CMD` the next step. -/
theorem step_withFetchWord (s : State) (nbits w : Nat) :
    step (s.withFetchWord nbits w) =
      issue (BitVec.ofNat 32 (w % 2 ^ nbits)) (s.setEnv { s.env with resetAsserted := false }) := rfl

end Sys2Proof.Machine
end

