-- ==== Sys2Proof/Laws/Inversion.lean ====
section
/-! SUPPORT. Everything a step that answers a next state can have been: a host access that is no command, a move that
leaves the block, a reset, a command, or a listen iteration. Whole-machine claims split on `step_inversion`. -/

namespace Sys2Proof.Machine

/-- Two environments agree on the clock, the reset input and the transport (R17 to R19). -/
structure Env.Agrees (e e' : Env) : Prop where
  now           : e'.now = e.now
  resetAsserted : e'.resetAsserted = e.resetAsserted
  rxQueue       : e'.rxQueue = e.rxQueue
  rxReport      : e'.rxReport = e.rxReport
  txReply       : e'.txReply = e.txReply
  txLog         : e'.txLog = e.txLog
  wire          : e'.wire = e.wire

/-- What a host access that starts no command leaves of the block: all but operands and W1C flags (R49, R50, R107). -/
structure Block.PortChange (b c : Block) : Prop where
  fsm     : c.fsm = b.fsm
  tokHeld : c.tokHeld = b.tokHeld
  tokDl   : c.tokDl = b.tokDl
  outBuf  : c.outBuf = b.outBuf
  inBuf   : c.inBuf = b.inBuf
  last    : b.SameLast c
  fatal   : c.fatal = b.fatal
  res     : c.res = b.res
  plLen   : c.plLen = b.plLen ∨ c.plLen.toNat ≤ Config.plCap

/-- What a step from `s` to `t` was. -/
inductive StepWas (s t : State) : Prop where
  | port : s.blk.PortChange t.blk → s.env.Agrees t.env → s.env.resetAsserted = false → StepWas s t
  | env : t.blk = s.blk → t.env.txLog = s.env.txLog → t.env.wire = s.env.wire →
      (∃ bs, t.env.rxQueue = s.env.rxQueue ++ bs) → (t.env.resetAsserted = true → s.env.resetAsserted = true) →
      StepWas s t
  | reset : t.blk = Block.reset → t.env.txLog = s.env.txLog → t.env.wire = s.env.wire →
      t.env.rxQueue = s.env.rxQueue → StepWas s t
  | command (i : Instr) (u : State) : u.blk = s.blk → s.env.Agrees u.env → s.blk.fatal = false → s.blk.fsm = .idle →
      s.env.resetAsserted = false → exec i u = .next t → StepWas s t
  | iteration (u : State) : u.blk = s.blk → s.env.Agrees u.env → s.blk.fsm ≠ .idle → s.env.resetAsserted = false →
      listenIteration u = .next t → StepWas s t

theorem Env.Agrees.trans {a b c : Env} (h : a.Agrees b) (g : b.Agrees c) : a.Agrees c :=
  ⟨g.1.trans h.1, g.2.trans h.2, g.3.trans h.3, g.4.trans h.4, g.5.trans h.5, g.6.trans h.6, g.7.trans h.7⟩

theorem Block.PortChange.rfl' (b : Block) : b.PortChange b := ⟨rfl, rfl, rfl, rfl, rfl, ⟨rfl, rfl⟩, rfl, rfl, .inl rfl⟩

theorem portChange_badAccess (b : Block) : b.PortChange b.badAccess :=
  ⟨rfl, rfl, rfl, rfl, rfl, ⟨rfl, rfl⟩, rfl, rfl, .inl rfl⟩

theorem portChange_reject (b : Block) : b.PortChange b.reject :=
  ⟨rfl, rfl, rfl, rfl, rfl, ⟨rfl, rfl⟩, rfl, rfl, .inl rfl⟩

/-- A register write other than a command's changes operands and W1C flags only (R50). -/
theorem portChange_writeReg (r : Reg) (v : Word) (b : Block) : b.PortChange (writeReg r v b) := by
  cases r
  case plLen =>
    show b.PortChange (b.writePlLen v)
    unfold Block.writePlLen
    by_cases h : v.toNat ≤ Config.plCap
    · rw [if_pos h]; exact ⟨rfl, rfl, rfl, rfl, rfl, ⟨rfl, rfl⟩, rfl, rfl, .inr h⟩
    · rw [if_neg h]; exact portChange_badAccess b
  all_goals exact ⟨rfl, rfl, rfl, rfl, rfl, ⟨rfl, rfl⟩, rfl, rfl, .inl rfl⟩

/-- A read changes nothing, or sets `BUSERR` (R51). -/
theorem portChange_portRead (size : Nat) (off : Offset) (b : Block) : b.PortChange (portRead size off b).2 := by
  unfold portRead; split
  · exact .rfl' b
  · exact portChange_badAccess b

/-- One operation of the host's program is an access that starts no command, or a command (R50, R107). -/
theorem serveOp_inversion {s u t : State} {op : HostOp} (hb : u.blk = s.blk) (he : s.env.Agrees u.env)
    (hr : s.env.resetAsserted = false) (h : serveOp op u = .next t) : StepWas s t := by
  have read {e : Env} (size off) (hx : u.env.Agrees e) : StepWas s ⟨(portRead size off u.blk).2, e⟩ :=
    .port (by rw [← hb]; exact portChange_portRead _ _ _) (he.trans hx) hr
  cases op with
  | wait =>
    unfold serveOp answerRead at h
    simp only at h
    split at h <;> cases h <;> exact read _ _ ⟨rfl, rfl, rfl, rfl, rfl, rfl, rfl⟩
  | access a =>
    cases a with
    | read size off => cases h; exact read _ _ ⟨rfl, rfl, rfl, rfl, rfl, rfl, rfl⟩
    | write size off v =>
      have h : portWrite size off v u = .next t := h
      unfold portWrite at h
      split at h
      · obtain ⟨_, h'⟩ | ⟨i, h1, h2, _, h'⟩ := issue_cases v u <;> rw [h'] at h
        · cases h; exact .port (by rw [← hb]; exact portChange_reject _) he hr
        · rw [hb] at h1 h2; exact .command i u hb he h1 h2 hr h
      · cases h; exact .port (by rw [← hb]; exact portChange_writeReg _ _ _) he hr
      · cases h; exact .port (by rw [← hb]; exact portChange_badAccess _) he hr

/-- Everything a step that answers a next state can have been. -/
theorem step_inversion {s t : State} (h : step s = .next t) : StepWas s t := by
  have hk : (takeTurn s).2.blk = s.blk ∧ s.env.Agrees (takeTurn s).2.env := by
    unfold takeTurn; split <;> exact ⟨rfl, rfl, rfl, rfl, rfl, rfl, rfl, rfl⟩
  unfold step at h
  generalize (takeTurn s).1 = turn at h
  generalize (takeTurn s).2 = u at h hk
  obtain ⟨hb, he⟩ := hk
  have pass : ∀ {t : State}, t.blk = s.blk → t.env.txLog = u.env.txLog → t.env.wire = u.env.wire →
      (∃ bs, t.env.rxQueue = u.env.rxQueue ++ bs) → (t.env.resetAsserted = true → u.env.resetAsserted = true) →
      StepWas s t := fun h1 h2 h3 h4 h5 =>
    .env h1 (h2.trans he.txLog) (h3.trans he.wire) (by rw [← he.rxQueue]; exact h4)
      (by rw [← he.resetAsserted]; exact h5)
  have queue (bs : List Byte) : ∃ cs, bs = bs ++ cs := ⟨[], by simp⟩
  cases turn with
  | host =>
    have h : hostTurn u = .next t := h
    unfold hostTurn at h
    split at h
    next => cases h; exact pass hb rfl rfl (queue _) id
    next hr =>
      have hr' : s.env.resetAsserted = false := by rw [← he.resetAsserted]; simpa using hr
      split at h <;> refine serveOp_inversion ?_ ?_ hr' h
      · exact hb
      · exact he.trans ⟨rfl, rfl, rfl, rfl, rfl, rfl, rfl⟩
      · exact hb
      · exact he.trans ⟨rfl, rfl, rfl, rfl, rfl, rfl, rfl⟩
  | block =>
    have h : blockTurn u = .next t := h
    obtain ⟨_, h'⟩ | ⟨h1, h2, h'⟩ := blockTurn_cases u <;> rw [h'] at h
    · cases h; exact pass hb rfl rfl (queue _) id
    · exact .iteration u hb he (by rw [← hb]; exact h2) (by rw [← he.resetAsserted]; exact h1) h
  | env m =>
    have h : envTurn m u = .next t := h
    cases m <;> cases h
    · exact pass hb rfl rfl (queue _) id
    · exact pass hb rfl rfl ⟨_, rfl⟩ id
    · exact pass hb rfl rfl (queue _) id
    · exact pass hb rfl rfl (queue _) id
    · exact .reset rfl he.txLog he.wire he.rxQueue
    · exact pass hb rfl rfl (queue _) (fun h => by cases h)

end Sys2Proof.Machine
end

