-- ==== Sys2Proof/Laws/PerInstr.lean ====
section
/-! SUPPORT. Laws of every command as syntax, one lemma per constructor. -/

namespace Sys2Proof.Laws.WordFields

/-- The word of a command has its opcode in bits 7:0, zeros in bits 31:8, and is legal (R67, R68). -/
def Statement (i : Instr) : Prop :=
  opField (Sys2Proof.encode i) = opcode i ∧ rsvField (Sys2Proof.encode i) = 0#24 ∧ i.wellFormed = true

theorem encode : Statement .encode := by unfold Statement; decide
theorem scan : Statement .scan := by unfold Statement; decide
theorem release : Statement .release := by unfold Statement; decide
theorem refresh : Statement .refresh := by unfold Statement; decide
theorem sendMessage : Statement .sendMessage := by unfold Statement; decide
theorem newMessage : Statement .newMessage := by unfold Statement; decide
theorem transmit : Statement .transmit := by unfold Statement; decide
theorem listen : Statement .listen := by unfold Statement; decide
theorem listenMessage : Statement .listenMessage := by unfold Statement; decide
theorem getMessage : Statement .getMessage := by unfold Statement; decide

end Sys2Proof.Laws.WordFields
end

