-- ==== Sys2Proof/Laws/Registers.lean ====
section
/-! SUPPORT. What the register map's functions answer, once each: the access check (R45), the register at an offset
(R47, R48), and the status and result words as numbers and bits (R31, R33). -/

namespace Sys2Proof.Machine

/-- A well-formed access is a 4-byte one at a 4-aligned offset (R45). -/
theorem wellFormedAccess_iff (size : Nat) (off : Offset) :
    wellFormedAccess size off = true ↔ size = 4 ∧ off.toNat % 4 = 0 := by
  unfold wellFormedAccess
  rw [Bool.and_eq_true, decide_eq_true_iff, decide_eq_true_iff, ← BitVec.toNat_inj]
  simp

/-- A well-formed access reaches the register at its offset (R45, R47). -/
theorem accessedReg_four {off : Offset} (h : off.toNat % 4 = 0) : accessedReg 4 off = regAt off := by
  unfold accessedReg; rw [if_pos ((wellFormedAccess_iff _ _).2 ⟨rfl, h⟩)]

/-- At and above 0x03C only the two array windows hold registers (R47). -/
theorem regAt_window {off : Offset} (h : 0x3C ≤ off.toNat) : regAt off = windowReg off.toNat := by
  unfold regAt
  generalize off.toNat = n at *
  split <;> first | rfl | omega

/-- The offset of an element of `PL_DATA` reaches that element (R47, R48). -/
theorem regAt_plData {i : Nat} (h : i < 256) : regAt (BitVec.ofNat 14 (0x1000 + 4 * i)) = some (.plData i) := by
  have hn : (BitVec.ofNat 14 (0x1000 + 4 * i)).toNat = 0x1000 + 4 * i := by simp; omega
  rw [regAt_window (by omega), hn, windowReg, if_pos (by simp only [Config.plCap]; omega)]
  congr 2; omega

/-- The offset of an element of `RES_BUF` reaches that element (R47, R48). -/
theorem regAt_resBuf {i : Nat} (h : i < 1024) : regAt (BitVec.ofNat 14 (0x2000 + 4 * i)) = some (.resBuf i) := by
  have hn : (BitVec.ofNat 14 (0x2000 + 4 * i)).toNat = 0x2000 + 4 * i := by simp; omega
  rw [regAt_window (by omega), hn, windowReg, if_neg (by simp only [Config.plCap]; omega),
    if_pos (by simp only [Config.resCap] at *; omega)]
  congr 2; omega

/-- A read-only offset reaches a register whose write is a bad access (R47, R52). -/
theorem regAt_readOnly {off : Offset} (h4 : off.toNat % 4 = 0) (h : ReadOnlyOffset off) :
    ∃ r, regAt off = some r ∧ r ≠ .cmd ∧ ∀ v b, writeReg r v b = b.setBusErr true := by
  unfold ReadOnlyOffset at h
  by_cases h' : off.toNat ≤ 0x38
  · unfold regAt
    generalize off.toNat = n at *
    have : 0x14 ≤ n := by omega
    interval_cases n <;> first | (simp at h4; done) | exact ⟨_, rfl, by simp, fun _ _ => rfl⟩
  · rw [regAt_window (by omega), windowReg, if_neg (by simp only [Config.plCap]; omega),
      if_pos (by simp only [Config.resCap] at *; omega)]
    exact ⟨_, rfl, by simp, fun _ _ => rfl⟩

/-- The value of two fields side by side. -/
theorem append_toNat {n m : Nat} (x : BitVec n) (y : BitVec m) : (x ++ y).toNat = x.toNat * 2 ^ m + y.toNat := by
  rw [BitVec.toNat_append, ← Nat.shiftLeft_add_eq_or_of_lt y.isLt, Nat.shiftLeft_eq]

/-- A flag's bit is worth 1 where it is set. -/
theorem bit_toNat (f : Bool) : (bit f).toNat = f.toNat := by cases f <;> rfl

/-- The bits of `STATUS`, by position (R31). -/
theorem Block.statusWord_getLsbD (b : Block) (k : Nat) :
    b.statusWord.getLsbD k =
      match k with
      | 0 => b.busy
      | 1 => b.tokHeld
      | 2 => b.fatal
      | 3 => b.inOvf
      | 4 => b.busErr
      | 5 => b.cmdErr
      | _ => false := by
  unfold Block.statusWord bit
  simp only [BitVec.getLsbD_append]
  rcases k with _ | _ | _ | _ | _ | _ | k <;> simp

end Sys2Proof.Machine
end

