-- ==== Sys2Proof/Laws/Scanner.lean ====
section
/-! SUPPORT. What the scanner's searches answer (R78) and how a frame is laid out (R62, R76), once each. -/

namespace Sys2Proof.Machine

/-- A window that is a marker lies inside the bytes. -/
theorem window3_lt {s m : List Byte} {i : Nat} (hm : m.length = 3) (h : window3 s i = m) : i + 2 < s.length := by
  have := congrArg List.length h; simp [window3, hm] at this; omega

/-- `startIndex` is the least index of a START marker (R78). -/
theorem startIndex_eq_some {s : List Byte} {i : Nat} : startIndex s = some i ↔ Least (StartAt s) i := by
  unfold startIndex Least StartAt
  rw [List.find?_range_eq_some]
  simp only [decide_eq_true_eq, List.mem_range, Bool.not_eq_true', decide_eq_false_iff_not]
  constructor
  · rintro ⟨h1, -, h3⟩; exact ⟨⟨window3_lt rfl h1, h1⟩, fun k hk hw => h3 k hk hw.2⟩
  · rintro ⟨⟨h1, h2⟩, h3⟩; exact ⟨h2, by omega, fun k hk hw => h3 k hk ⟨window3_lt rfl hw, hw⟩⟩

/-- `startIndex` is `none` where there is no START marker (R78). -/
theorem startIndex_eq_none {s : List Byte} : startIndex s = none ↔ ∀ i, ¬ StartAt s i := by
  unfold startIndex StartAt
  rw [List.find?_range_eq_none]
  simp only [Bool.not_eq_true', decide_eq_false_iff_not]
  constructor
  · rintro h i ⟨h1, h2⟩; exact h i (by omega) h2
  · intro h i hi hw; exact h i ⟨window3_lt rfl hw, hw⟩

/-- `endCount` is the least count that ends in an END marker (R78). -/
theorem endCount_eq_some {s : List Byte} {n : Nat} : endCount s = some n ↔ Least (EndAt s) n := by
  unfold endCount Least EndAt
  rw [List.find?_range_eq_some]
  simp only [Bool.and_eq_true, decide_eq_true_eq, List.mem_range, Bool.not_eq_true', Bool.and_eq_false_iff,
    decide_eq_false_iff_not]
  constructor
  · rintro ⟨⟨h0, h1⟩, h2, h3⟩
    exact ⟨⟨h0, by omega, h1⟩, fun k hk hw => (h3 k hk).elim (fun h => h hw.1) (fun h => h hw.2.2)⟩
  · rintro ⟨⟨h0, h1, h2⟩, h3⟩
    refine ⟨⟨h0, h2⟩, by omega, fun k hk => ?_⟩
    by_cases hc : Config.endMin ≤ k
    · exact .inr fun hw => h3 k hk ⟨hc, by omega, hw⟩
    · exact .inl hc

/-- `endCount` is `none` where no count ends in an END marker (R78). -/
theorem endCount_eq_none {s : List Byte} : endCount s = none ↔ ∀ n, ¬ EndAt s n := by
  unfold endCount EndAt
  rw [List.find?_range_eq_none]
  constructor
  · rintro h n ⟨h1, h2, h3⟩; have := h n (by omega); simp [h1, h3] at this
  · intro h n hn
    simp only [Bool.not_eq_true', Bool.and_eq_false_iff, decide_eq_false_iff_not]
    by_cases hc : Config.endMin ≤ n
    · exact .inr fun hw => h n ⟨hc, by omega, hw⟩
    · exact .inl hc

/-- The bytes after a START marker scan to the frame of the least END, or to nothing (R78). -/
theorem scanBody_cases (body : List Byte) :
    (∃ id rest n, body = id :: rest ∧ Least (EndAt body) n ∧ scanBody body = .frame id (rest.take (n - 4))) ∨
      ((∀ n, ¬ EndAt body n) ∧ scanBody body = .incomplete) := by
  cases h : endCount body with
  | none => exact .inr ⟨endCount_eq_none.1 h, by unfold scanBody; rw [h]⟩
  | some n =>
    have h' := endCount_eq_some.1 h
    cases body with
    | nil => have h2 := h'.1.2.1; have h1 := h'.1.1; simp [Config.endMin] at *; omega
    | cons id rest => exact .inl ⟨id, rest, n, rfl, h', by unfold scanBody; rw [h]⟩

/-- A frame is START, the id, the bytes of R81 and END (R62). -/
theorem frame_eq (id win : Int) (pl : List Int) :
    frame id win pl = startMarker ++ (operandByte id :: (betweenIdAndEnd win pl ++ endMarker)) := by
  simp [frame, betweenIdAndEnd]

/-- The length of a frame's field sequence (R62). -/
theorem frame_length (id win : Int) (pl : List Int) :
    (frame id win pl).length = (if win = 0 then 7 else 9) + pl.length := by
  unfold frame windowField; split <;> simp [startMarker, endMarker] <;> omega

/-- A value in byte range is its byte (R70). -/
theorem operandByte_toNat {v : Int} (h : 0 ≤ v ∧ v ≤ 255) : (operandByte v).toNat = v.toNat := by
  unfold operandByte; rw [BitVec.toNat_ofInt]; omega

end Sys2Proof.Machine
end

