-- ==== Sys2Proof/Tests/Slice0.lean ====
section
/-! SUPPORT. The model's own tests: well-formedness, decoding of words written out from R67 and R68, one-step tests whose
expected values are the vectors of spec/95_test_vectors.md, and for each obligation with hypotheses a witness that meets
them. -/

set_option maxRecDepth 4000

namespace Sys2Proof.Tests
open Sys2Proof Sys2Proof.Machine

/-! ## Small states -/

/-- A state that differs from reset in its block or environment. -/
def world (b : Block) (e : Env := Env.initial) : State := ⟨b, e⟩

/-- The reset block with a message staged in the operand registers. -/
def staged (id win : Int) (pl : List Int) : Block :=
  (((Block.reset.setArgId (BitVec.ofInt 32 id)).setArgWin (BitVec.ofInt 32 win)).setPlLen (countWord pl.length)).setPlData
    (pl.zipIdx.foldl (fun d v => d.setIfInBounds v.2 (BitVec.ofInt 32 v.1)) Block.reset.plData)

/-- The environment of a vector at time `now`. -/
def atTime (now : Timestamp) : Env := { Env.initial with now := now }

/-- `RELEASED(dl)`. -/
def released (dl : Timestamp) : Block := Block.reset.setToken false dl

/-- The host serves `op` in the next turn. -/
def hostDoes (op : HostOp) (s : State) : State :=
  s.setEnv { s.env with hostOps := op :: s.env.hostOps, turns := .host :: s.env.turns }

/-- The host writes `v` at `off` in the next turn. -/
def writes (off : Offset) (v : Word) (s : State) : State := hostDoes (.access (.write 4 off v)) s

/-- The next turn is `t`. -/
def takes (t : Turn) (s : State) : State := s.setEnv { s.env with turns := t :: s.env.turns }

theorem hostDoes_next (op : HostOp) (s : State) (h : s.env.resetAsserted = false) : HostNext (hostDoes op s) op s :=
  ⟨rfl, h, rfl, rfl⟩

theorem writes_next (off : Offset) (v : Word) (s : State) (h : s.env.resetAsserted = false) :
    HostWrites (writes off v s) off v s := hostDoes_next _ s h

theorem takes_next (t : Turn) (s : State) : TurnNext (takes t s) t s := ⟨rfl, rfl⟩

/-- A next state with a property. -/
def after (o : Host.Outcome State Fault Refusal) (p : State → Bool) : Bool :=
  match o with
  | .next t => p t
  | .fault _ => false
  | .refused _ => false

/-- The result is this one: `RES_STAT`, `RES_ID` and the buffer. -/
def shows (t : State) (stat : Nat) (id : Nat) (buf : List Nat) : Bool :=
  t.blk.res.statWord.toNat == stat && t.blk.res.id.toNat == id && t.blk.res.buf.map BitVec.toNat == buf

/-- `STATUS` reads this. -/
def status (t : State) (v : Nat) : Bool := t.blk.statusWord.toNat == v

/-! ## Well-formedness refuses an ill-formed term of each kind -/

theorem test_zero_word_is_illegal : legalCommandWord 0x00000000#32 = false := by decide
theorem test_word_above_table_is_illegal : legalCommandWord 0x0000000B#32 = false := by decide
theorem test_word_with_reserved_bit_is_illegal : legalCommandWord 0x00000101#32 = false := by decide
theorem test_plData_atTimecapacity_is_illFormed : Reg.wellFormed (.plData 256) = false := by decide
theorem test_resBuf_atTimecapacity_is_illFormed : Reg.wellFormed (.resBuf 1024) = false := by decide
theorem test_access_of_two_bytes_is_illFormed : Access.wellFormed (.read 2 0x004#14) = false := by decide
theorem test_misaligned_access_is_illFormed : Access.wellFormed (.write 4 0x006#14 0#32) = false := by decide
theorem test_ldpl_above_capacity_is_illFormed : AsmLine.wellFormed (.ldpl (List.replicate 257 0)) = false := by decide
theorem test_line_of_missing_register_is_illFormed : AsmLine.wellFormed (.rd (.plData 256)) = false := by decide
theorem test_endMin_of_six_is_illFormed : Params.wellFormed { Config.params with endMin := 6 } = false := by decide
theorem test_lastCap_of_inCap_is_illFormed : Params.wellFormed { Config.params with lastCap := 1024 } = false := by decide
theorem test_parameters_of_this_hardware : Config.params.wellFormed = true := by decide

/-! ## Command words, bit by bit: RSV in 31:8, OP in 7:0 (R67, R68) -/

theorem test_decode_encode : decode 0b000000000000000000000000_00000001#32 = .ok .encode := by decide
theorem test_decode_scan : decode 0b000000000000000000000000_00000010#32 = .ok .scan := by decide
theorem test_decode_release : decode 0b000000000000000000000000_00000011#32 = .ok .release := by decide
theorem test_decode_refresh : decode 0b000000000000000000000000_00000100#32 = .ok .refresh := by decide
theorem test_decode_sendMessage : decode 0b000000000000000000000000_00000101#32 = .ok .sendMessage := by decide
theorem test_decode_newMessage : decode 0b000000000000000000000000_00000110#32 = .ok .newMessage := by decide
theorem test_decode_transmit : decode 0b000000000000000000000000_00000111#32 = .ok .transmit := by decide
theorem test_decode_listen : decode 0b000000000000000000000000_00001000#32 = .ok .listen := by decide
theorem test_decode_listenMessage : decode 0b000000000000000000000000_00001001#32 = .ok .listenMessage := by decide
theorem test_decode_getMessage : decode 0b000000000000000000000000_00001010#32 = .ok .getMessage := by decide
theorem test_decode_rejects_by_name :
    decode 0b000000000000000000000000_00000000#32 = .error .zeroOpcode ∧
      decode 0b000000000000000000000000_00001011#32 = .error .reservedOpcode ∧
        decode 0b100000000000000000000000_00000001#32 = .error .reservedBits := by decide
theorem test_tableWord : decodeTableWord 32 0x0A = some .getMessage ∧ decodeTableWord 32 0x0B = none := by decide

/-! ## Commands, one step each (vectors of spec/95) -/

/-- W2. -/
theorem test_encode_with_window :
    after (exec .encode (world (staged 7 500 [0x41]))) (shows · 0x00010001 7 [255, 255, 255, 7, 1, 0xF4, 0x41, 254, 254, 254]) =
      true := by decide

/-- E3, E4, E5: all three operands bad, then the window and the payload, then the payload; codes 1, 2, 3. -/
theorem test_encode_reports_the_first_code :
    after (exec .encode (world (staged 256 65536 [300]))) (shows · 0x00010110 0 []) = true ∧
      after (exec .encode (world (staged 5 (-1) [300]))) (shows · 0x00010120 0 []) = true ∧
        after (exec .encode (world (staged 5 0 [1, 2, 300, -1]))) (shows · 0x00010130 0 []) = true := by decide

/-- S18, R84's example. -/
theorem test_scan_resynchronises :
    after (exec .scan (world (Block.reset.setInBuf [10, 20, 255, 255, 255, 5, 1, 2, 3, 254, 254, 254])))
      (fun t => shows t 0x00020001 5 [1, 2, 3] && t.blk.inBuf.length == 12) = true := by decide

/-- S4: an END over the id byte is no END. -/
theorem test_scan_end_never_covers_the_id :
    after (exec .scan (world (Block.reset.setInBuf [255, 255, 255, 254, 254, 254]))) (shows · 0x00020300 0 []) = true := by
  decide

/-- A6: no refresh first. -/
theorem test_release_does_not_refresh :
    after (exec .release (world ((released 10).setArgWin 100) (atTime 50)))
      (fun t => shows t 0x00030001 0 [] && !t.blk.tokHeld && t.blk.tokDl == 150) = true := by decide

/-- A9: a deadline across the two halves. -/
theorem test_release_deadline_halves :
    after (exec .release (world ((released 0x100000005).setArgWin 0x7FFFFFFF) (atTime 0x100000001)))
      (fun t => t.blk.dlLo == 0x80000000 && t.blk.dlHi == 1) = true := by decide

/-- T3: strict comparison. -/
theorem test_refresh_atTimethe_deadline :
    after (exec .refresh (world (released 1500) (atTime 1500))) (fun t => shows t 0x00040000 0 [] && status t 0) = true := by
  decide

/-- T4. -/
theorem test_refresh_after_the_deadline :
    after (exec .refresh (world (released 1500) (atTime 1501)))
      (fun t => shows t 0x00040001 0 [] && status t 2 && t.blk.dlLo == 1500) = true := by decide

/-- SD2: the stale frame is sent. -/
theorem test_sendMessage_sends_the_stale_frame :
    after (exec .sendMessage (world ((staged 256 0 []).setOutBuf [255, 255, 255, 3, 0xAA, 254, 254, 254])))
      (fun t => shows t 0x00050011 0 [255, 255, 255, 3, 0xAA, 254, 254, 254] && t.blk.outBuf.isEmpty &&
        t.env.wire == [255, 255, 255, 3, 0xAA, 254, 254, 254]) = true := by decide

/-- Section 1.7. -/
theorem test_sendMessage_denied :
    after (exec .sendMessage (world ((staged 5 0 [1, 2, 3]).setToken false 1500) (atTime 1499)))
      (fun t => t.blk.res.statWord == 0x00050200 && t.blk.outBuf.isEmpty && t.env.txLog.isEmpty) = true := by decide

/-- R92's example. -/
theorem test_newMessage_queues_the_frame :
    after (exec .newMessage (world (staged 7 500 [0x41])))
      (fun t => t.blk.res.statWord == 0x00060001 && t.blk.outBuf == [255, 255, 255, 7, 1, 0xF4, 0x41, 254, 254, 254]) =
        true := by decide

/-- N2: a failure keeps the buffer. -/
theorem test_newMessage_failure_keeps_the_buffer :
    after (exec .newMessage (world ((staged (-5) 0 []).setOutBuf [255, 255, 255, 1, 1, 2, 254, 254, 254])))
      (fun t => shows t 0x00060110 0 [] && t.blk.outBuf.length == 9) = true := by decide

/-- M3. -/
theorem test_transmit_sends_and_releases :
    after (exec .transmit (world ((staged 7 500 [0x41]).setOutBuf [255, 255, 255, 7, 1, 0xF4, 0x41, 254, 254, 254]) (atTime 2000)))
      (fun t => t.blk.res.statWord == 0x00070001 && t.blk.res.buf.length == 10 && !t.blk.tokHeld && t.blk.tokDl == 2500 &&
        t.blk.outBuf.isEmpty) = true := by decide

/-- M4. -/
theorem test_transmit_fault_is_fatal :
    after (exec .transmit (world ((Block.reset.setArgWin 100).setOutBuf [255, 255, 255, 1, 254, 254, 254])
        { atTime 10 with txReply := { ok := false, sent := some 2 } }))
      (fun t => shows t 0x00070500 0 [] && status t 6 && t.blk.outBuf.isEmpty) = true := by decide

/-- R97: the issue sets BUSY only. -/
theorem test_listen_issue : after (exec .listen (world Block.reset)) (fun t => status t 3 && shows t 0 0 []) = true := by decide

/-- L1: completion at the first iteration. -/
theorem test_listen_completes :
    after (step (takes .block (world (Block.reset.setFsm .listen)))) (fun t => status t 2 && shows t 0x00080001 0 []) =
      true := by decide

/-- L7 with its capacity of 4: bytes beyond it are dropped. -/
theorem test_listen_drops_beyond_capacity :
    pushInbound 4 [1, 2, 3] 4 = ([1, 2, 3, 4], false) ∧ pushInbound 4 [1, 2, 3, 4] 5 = ([1, 2, 3, 4], true) := by decide

/-- P1 line 7: the issue while released. -/
theorem test_listenMessage_issue :
    after (exec .listenMessage (world (released 1500) (atTime 1000))) (fun t => status t 1 && shows t 0 0 []) = true := by decide

/-- L6: an id-0 frame overwrites an unread message. -/
theorem test_listenMessage_stores_id_zero :
    after (step (takes .block (world (((Block.reset.setFsm .listenMsg).setLast 9 [1]).setInBuf
        [255, 255, 255, 0, 0x55, 254, 254, 254]))))
      (fun t => shows t 0x00090001 0 [0x55] && t.blk.lastId == 0 && t.blk.lastPl == [0x55] && t.blk.inBuf.isEmpty &&
        status t 2) = true := by decide

/-- Section 1.6. -/
theorem test_getMessage_consumes :
    after (exec .getMessage (world (Block.reset.setLast 7 [0xC0, 0xDE])))
      (fun t => shows t 0x000A0001 7 [0xC0, 0xDE] && t.blk.lastId == 0 && t.blk.lastPl.isEmpty) = true := by decide

/-- G1. -/
theorem test_getMessage_without_message : after (exec .getMessage State.reset) (shows · 0x000A0400 0 []) = true := by decide

/-! ## The port (section 2.5 of spec/95) -/

/-- K1 to K3. -/
theorem test_illegal_words_set_cmdErr :
    ([0x0B, 0x101, 0] : List Word).all
      (fun w => after (step (writes 0x000#14 w State.reset)) (fun t => status t 0x22 && shows t 0 0 [])) = true := by decide

/-- K4, K6: a reserved offset, a 2-byte and a misaligned read. -/
theorem test_bad_reads_set_busErr :
    ([.read 4 0x03C#14, .read 2 0x004#14, .read 4 0x006#14] : List Access).all
      (fun a => after (step (hostDoes (.access a) State.reset)) (fun t => status t 0x12 && t.env.hostReads == [0])) =
        true := by decide

/-- K5, K14. -/
theorem test_bad_writes_set_busErr :
    after (step (writes 0x014#14 1 State.reset)) (fun t => status t 0x12) = true ∧
      after (step (writes 0x1400#14 5 State.reset)) (fun t => status t 0x12) = true := by decide

/-- K9, K10. -/
theorem test_status_write_clears :
    after (step (writes 0x004#14 0x10 (world (((Block.reset.setInOvf true).setBusErr true).setCmdErr true))))
        (status · 0x2A) = true ∧
      after (step (writes 0x004#14 0xFFFFFFFF (world (Block.reset.setFatal true)))) (status · 0x06) = true := by decide

/-- K11: a command while LISTEN runs is rejected. -/
theorem test_busy_rejects :
    after (step (writes 0x000#14 4 (world ((released 10).setFsm .listen)))) (fun t => status t 0x21 && shows t 0 0 []) =
      true := by decide

/-- K15: above `RES_LEN`. -/
theorem test_resBuf_above_length_reads_zero :
    (portRead 4 0x2008#14 (Block.reset.result .scan true .pass .none 7 [0xC0, 0xDE])).1 = 0 := by decide

/-- S-vectors through both scanners: S6, S8, S13, S17, S20. -/
theorem test_scanner_vectors :
    ([([255, 255, 255, 5, 1, 254, 254, 254], .frame 5 [1]), ([255, 255, 255, 5, 1, 254, 254, 254, 254], .frame 5 [1]),
        ([255, 255, 255, 255, 5, 1, 254, 254, 254], .frame 255 [5, 1]),
        ([255, 255, 255, 1, 2, 254, 254, 254, 255, 255, 255, 3, 4, 254, 254, 254], .frame 1 [2]),
        ([1, 255, 255, 2, 255, 255, 255, 9, 254, 254, 254], .frame 9 [])] : List (List Byte × Scan)).all
      (fun v => decide (scanFn v.1 = v.2) && decide (scanStream v.1 = v.2)) = true := by decide

/-! ## Witnesses: states and operands that meet the hypotheses of each obligation, clause by clause -/

theorem not_ok_of_error {w : Word} {e : DecodeError} (h : decode w = .error e) (i : Instr) : decode w ≠ .ok i := by
  rw [h]; simp

/-- A block with FATAL set, as a fault leaves it. -/
def fatalBlock : Block := Block.reset.setFatal true

/-- A listening block, the token held. -/
def listening : Block := Block.reset.setFsm .listen

/-- The frame of R84's example, its bytes. -/
def bytes5 : List Byte := [255, 255, 255, 5, 1, 2, 3, 254, 254, 254]

theorem witness_DecodeAndEncodeAgree :
    Instr.wellFormed .getMessage = true ∧ decode 0x0A#32 = .ok .getMessage := by decide

/-- OP 0x00, OP 0x0B, OP 0xFF, and a reserved bit. -/
theorem witness_IllegalWordsAreRejected :
    ∀ w ∈ ([0x00000000#32, 0x0000000B#32, 0x000000FF#32, 0x00000101#32] : List Word),
      HostWrites (writes 0x000#14 w State.reset) 0x000#14 w State.reset ∧ ∀ i, decode w ≠ .ok i := by
  intro w hw
  refine ⟨writes_next _ _ _ rfl, fun i => ?_⟩
  fin_cases hw
  exacts [not_ok_of_error (e := .zeroOpcode) (by decide) i, not_ok_of_error (e := .reservedOpcode) (by decide) i,
    not_ok_of_error (e := .reservedOpcode) (by decide) i, not_ok_of_error (e := .reservedBits) (by decide) i]

theorem witness_StepRunsTheDecodedCommand :
    HostWrites (writes 0x000#14 0x0A#32 State.reset) 0x000#14 0x0A#32 State.reset ∧ decode 0x0A#32 = .ok .getMessage ∧
      (writes 0x000#14 0x0A#32 State.reset).blk.fatal = false ∧ (writes 0x000#14 0x0A#32 State.reset).blk.fsm = .idle :=
  ⟨writes_next _ _ _ rfl, by decide, rfl, rfl⟩

/-- Rejected under (a), under (b), under (c), and executed. -/
theorem witness_CommandWriteRejectedOrExecuted :
    (HostWrites (writes 0x000#14 4#32 (world fatalBlock)) 0x000#14 4#32 (world fatalBlock) ∧ fatalBlock.fatal = true) ∧
      (HostWrites (writes 0x000#14 4#32 (world listening)) 0x000#14 4#32 (world listening) ∧ listening.fsm ≠ .idle) ∧
        (HostWrites (writes 0x000#14 0#32 State.reset) 0x000#14 0#32 State.reset ∧ ∀ i, decode 0#32 ≠ .ok i) ∧
          HostWrites (writes 0x000#14 4#32 State.reset) 0x000#14 4#32 State.reset ∧ State.reset.blk.fatal = false ∧
            State.reset.blk.fsm = .idle ∧ decode 4#32 = .ok .refresh :=
  ⟨⟨writes_next _ _ _ rfl, rfl⟩, ⟨writes_next _ _ _ rfl, by decide⟩,
    ⟨writes_next _ _ _ rfl, not_ok_of_error (e := .zeroOpcode) (by decide)⟩, writes_next _ _ _ rfl, rfl, rfl, by decide⟩

theorem witness_HostTransactionIsServedInOneStep :
    HostNext (hostDoes (.access (.read 4 0x3FFC#14)) State.reset) (.access (.read 4 0x3FFC#14)) State.reset ∧
      HostNext (hostDoes (.access (.write 1 0x001#14 7#32)) State.reset) (.access (.write 1 0x001#14 7#32)) State.reset :=
  ⟨hostDoes_next _ _ rfl, hostDoes_next _ _ rfl⟩

/-- Busy and idle. -/
theorem witness_WaitPollsStatusUntilNotBusy :
    HostNext (hostDoes .wait (world listening)) .wait (world listening) ∧
      HostNext (hostDoes .wait State.reset) .wait State.reset := ⟨hostDoes_next _ _ rfl, hostDoes_next _ _ rfl⟩

/-- The edges of the values and of the arrays, no value to stage, and a full staging area with its last index. -/
theorem witness_HostNotationExpandsToTransactions :
    (∀ v ∈ ([-0x80000000, -1, 0, 0xFFFFFFFF] : List Int), -2 ^ 31 ≤ v ∧ v < 2 ^ 32) ∧ 255 < 256 ∧ 1023 < 1024 ∧
      ([] : List Int).length ≤ 256 ∧ (List.replicate 256 (-1 : Int)).length ≤ 256 ∧
        255 < (List.replicate 256 (-1 : Int)).length := by decide

/-- The edges of each reserved range, and an index on each side of `RES_LEN`. -/
theorem witness_ReadsReturnTheMappedValue :
    (∀ off ∈ ([0x03C#14, 0xFFC#14, 0x1400#14, 0x1FFC#14, 0x3000#14, 0x3FFC#14] : List Offset),
      off.toNat % 4 = 0 ∧ ReservedOffset off) ∧
      1 < (Block.reset.result .scan true .pass .none 7 [0xC0, 0xDE]).res.buf.length ∧
        (Block.reset.result .scan true .pass .none 7 [0xC0, 0xDE]).res.buf.length ≤ 2 := by
  refine ⟨?_, by decide⟩
  simp [ReservedOffset, Config.plCap, Config.resCap]

/-- `PL_LEN` at its bound and above it, and the edges of the read-only offsets. -/
theorem witness_WritesDoWhatTheMapSays :
    (256#32).toNat ≤ 256 ∧ 256 < (257#32).toNat ∧
      ∀ off ∈ ([0x014#14, 0x038#14, 0x2000#14, 0x2FFC#14] : List Offset), off.toNat % 4 = 0 ∧ ReadOnlyOffset off := by
  refine ⟨by decide, by decide, ?_⟩
  simp [ReadOnlyOffset, Config.resCap]

/-- A size, an alignment, a reserved and a read-only offset; a `STATUS` write; an illegal `PL_LEN`. -/
theorem witness_BadAccessesOnlySetBusErr :
    (HostNext (hostDoes (.access (.read 2 0x004#14)) State.reset) (.access (.read 2 0x004#14)) State.reset ∧ 2 ≠ 4) ∧
      (HostNext (hostDoes (.access (.read 4 0x006#14)) State.reset) (.access (.read 4 0x006#14)) State.reset ∧
        (0x006#14).toNat % 4 ≠ 0) ∧
        (HostNext (hostDoes (.access (.read 4 0x03C#14)) State.reset) (.access (.read 4 0x03C#14)) State.reset ∧
          ReservedOffset 0x03C#14) ∧
          (HostNext (hostDoes (.access (.write 4 0x014#14 1#32)) State.reset) (.access (.write 4 0x014#14 1#32))
              State.reset ∧ ReadOnlyOffset 0x014#14) ∧
            (HostWrites (writes 0x004#14 0x38#32 State.reset) 0x004#14 0x38#32 State.reset ∧
              State.reset.blk.busErr = false) ∧
              HostWrites (writes 0x010#14 257#32 State.reset) 0x010#14 257#32 State.reset ∧ 256 < (257#32).toNat :=
  ⟨⟨hostDoes_next _ _ rfl, by decide⟩, ⟨hostDoes_next _ _ rfl, by decide⟩,
    ⟨hostDoes_next _ _ rfl, by unfold ReservedOffset; decide⟩, ⟨hostDoes_next _ _ rfl, by unfold ReadOnlyOffset; decide⟩,
    ⟨writes_next _ _ _ rfl, rfl⟩, writes_next _ _ _ rfl, by decide⟩

theorem witness_StatusWriteClearsTheBitsWrittenOne :
    HostWrites (writes 0x004#14 0xFFFFFFFF#32 (world fatalBlock)) 0x004#14 0xFFFFFFFF#32 (world fatalBlock) :=
  writes_next _ _ _ rfl

/-- The bound of `PL_LEN`, the last element, and two blocks that differ above `PL_LEN` only. -/
theorem witness_PayloadOperandIsTheStagedPrefix :
    HostWrites (writes 0x010#14 256#32 State.reset) 0x010#14 256#32 State.reset ∧
      HostWrites (writes (BitVec.ofNat 14 (0x1000 + 4 * 255)) 5#32 State.reset) (BitVec.ofNat 14 (0x1000 + 4 * 255)) 5#32
        State.reset ∧
        (Block.reset.setPlLen 256#32).plLen.toNat ≤ 256 ∧
          (staged 1 0 [7]).plLen = ((staged 1 0 [7, 999]).setPlLen 1#32).plLen ∧
            ∀ (k : Nat) (_ : k < 256), k < ((staged 1 0 [7, 999]).setPlLen 1#32).plLen.toNat →
              (staged 1 0 [7]).plData[k] = ((staged 1 0 [7, 999]).setPlLen 1#32).plData[k] := by
  refine ⟨writes_next _ _ _ rfl, writes_next _ _ _ rfl, by decide, rfl, fun k _ hk => ?_⟩
  have : k = 0 := by
    have h1 : ((staged 1 0 [7, 999]).setPlLen 1#32).plLen.toNat = 1 := rfl
    omega
  subst this; rfl

/-- The last element of each window, and an aligned offset of each kind. -/
theorem witness_RegisterMapIsOneToOne :
    Reg.wellFormed (.plData 255) = true ∧ Reg.wellFormed (.resBuf 1023) = true ∧
      (0x2FFC#14).toNat % 4 = 0 ∧ regAt 0x2FFC#14 = some (.resBuf 1023) ∧ regAt 0x3000#14 = none := by decide

/-- A turn that completes a LISTEN, and one that is refused. -/
theorem witness_OperandWritesDoNotReachARunningListen :
    (∃ t, blockTurn (world listening) = .next t) ∧
      blockTurn (world listening { Env.initial with rxReport := some 1 }) = .refused .rxNothingToRead :=
  ⟨⟨_, rfl⟩, rfl⟩

/-- Both signs. -/
theorem witness_OperandsAreSignExtendedRegisters :
    (Block.reset.setArgId 0x7FFFFFFF#32).argId.toNat < 2 ^ 31 ∧
      ¬ (Block.reset.setArgId 0x80000000#32).argId.toNat < 2 ^ 31 := by decide

/-- Each verdict at a boundary. -/
theorem witness_ValidationReportsTheFirstFailingCheck :
    validate 256 65536 [300] = .badId ∧ validate 255 65536 [300] = .badWin ∧ validate 0 65535 [0, 256] = .badPayload ∧
      validate 255 65535 [255, 0] = .pass := by decide

/-- With and without a window. -/
theorem witness_FrameHasTheWireLayout : validate 255 65535 [255, 254] = .pass ∧ validate 0 0 [] = .pass := by decide

/-- The least and the greatest frame. -/
theorem witness_FrameLengthsAreSevenOrNinePlusPayload :
    validate 0 0 [] = .pass ∧ validate 5 1 (List.replicate 256 0) = .pass ∧
      (List.replicate 256 (0 : Int)).length ≤ 256 := by decide

/-- A pass and each failing verdict. -/
theorem witness_EncodeReportsTheFrameOrTheVerdict :
    (staged 5 0 [1, 2, 3]).verdict = .pass ∧ (staged 256 0 []).verdict = .badId ∧
      (staged 5 65536 []).verdict = .badWin ∧ (staged 5 0 [256]).verdict = .badPayload := by decide

/-- A frame at index 0, bytes without START, and START without END (S3, S1, S2). -/
theorem witness_ScanFindsTheFirstStartAndEnd :
    (Least (StartAt [255, 255, 255, 5, 254, 254, 254]) 0 ∧ Least (EndAt [5, 254, 254, 254]) 4) ∧
      (∀ i, ¬ StartAt [] i) ∧
        (Least (StartAt [255, 255, 255, 5, 1, 2]) 0 ∧ ∀ n, ¬ EndAt ([255, 255, 255, 5, 1, 2].drop (0 + 3)) n) ∧
          scanFn [255, 255, 255, 5, 254, 254, 254] = .frame 5 [] :=
  ⟨⟨startIndex_eq_some.1 (by decide), endCount_eq_some.1 (by decide)⟩, startIndex_eq_none.1 (by decide),
    ⟨startIndex_eq_some.1 (by decide), endCount_eq_none.1 (by decide)⟩, by decide⟩

theorem witness_ScannerSlidesByOneByte :
    (0x0A#8 :: bytes5).take 3 ≠ [0xFF#8, 0xFF#8, 0xFF#8] ∧ ([0xFF#8, 0xFF#8] : List Byte).take 3 ≠ [0xFF#8, 0xFF#8, 0xFF#8] := by
  decide

/-- The cut of `Q = [1, FE]`, with and without a window (RT5, S12). -/
theorem witness_FrameScansToItsBytesBeforeTheFirstEndRun :
    (validate 5 0 [1, 254] = .pass ∧ Least (fun j => window3 (betweenIdAndEnd 0 [1, 254] ++ endMarker) j = endMarker) 1) ∧
      validate 5 254 [] = .pass ∧ Least (fun j => window3 (betweenIdAndEnd 254 [] ++ endMarker) j = endMarker) 1 := by
  unfold Least; decide

/-- A frame found, and a buffer of 6 bytes. -/
theorem witness_OneScanReturnsTheFirstFrameOnly :
    scanFn [255, 255, 255, 5, 254, 254, 254] = .frame 5 [] ∧ ([255, 255, 255, 254, 254, 254] : List Byte).length < 7 := by
  decide

theorem no_end_run {s : List Byte} (h : (List.range s.length).all (fun j => decide (window3 s j ≠ endMarker)) = true)
    (j : Nat) : window3 s j ≠ endMarker := by
  intro hw
  have hlt := window3_lt rfl hw
  have := List.all_eq_true.1 h j (List.mem_range.2 (by omega))
  exact absurd hw (of_decide_eq_true this)

/-- R82's example. -/
theorem witness_StrayMarkerByteShiftsTheFrame :
    validate 5 0 [1] = .pass ∧ (∀ j, window3 (BitVec.ofInt 8 5 :: betweenIdAndEnd 0 [1]) j ≠ endMarker) ∧
      (BitVec.ofInt 8 5 :: betweenIdAndEnd 0 [1]).getLast? ≠ some 0xFE#8 :=
  ⟨by decide, no_end_run (by decide), by decide⟩

/-- Both outcomes. -/
theorem witness_ScanReportsAndChangesNoBuffer :
    scanFn (Block.reset.setInBuf bytes5).inBuf = .frame 5 [1, 2, 3] ∧ scanFn Block.reset.inBuf = .incomplete := by decide

/-- Each row: reset, a release that fits, none, a held token, an expired one, and one at its deadline. -/
theorem witness_ArbiterFollowsItsTransitionTable :
    TurnNext (takes (.env .assertReset) State.reset) (.env .assertReset) State.reset ∧
      (0 < (1 : Int) ∧ (0xFFFFFFFFFFFFFFFE#64).toNat + (1 : Int).toNat < 2 ^ 64) ∧ (0 : Int) ≤ 0 ∧
        Block.reset.tokHeld = true ∧ ((released 10).tokHeld = false ∧ (released 10).tokDl.toNat < (11#64).toNat) ∧
          (released 10).tokHeld = false ∧ (10#64).toNat ≤ (released 10).tokDl.toNat :=
  ⟨takes_next _ _, by decide, by decide, rfl, by decide, by decide⟩

/-- The least overflow, at which a send releases, is denied, or faults. -/
theorem witness_DeadlineOverflowIsRefused :
    0 < (staged 5 1 []).winOp ∧ 2 ^ 64 ≤ (atTime 0xFFFFFFFFFFFFFFFF).now.toNat + (staged 5 1 []).winOp.toNat ∧
      ((staged 5 1 []).HeldAt (atTime 0xFFFFFFFFFFFFFFFF).now ∧ (atTime 0xFFFFFFFFFFFFFFFF).txReply.ok = true) ∧
        ¬ ((staged 5 1 []).setToken false 0xFFFFFFFFFFFFFFFF).HeldAt (atTime 0xFFFFFFFFFFFFFFFF).now ∧
          ({ atTime 0xFFFFFFFFFFFFFFFF with txReply := { ok := false, sent := some 0 } } : Env).txReply.ok = false := by
  unfold Block.HeldAt; decide

theorem witness_WindowEndsStrictlyAfterTheDeadline :
    (0 : Int) < 500 ∧ Block.reset.releaseFn 500 1000 = some (Block.reset.setToken false 1500) := ⟨by decide, rfl⟩

/-- No window, the greatest that fits, and the least that does not. -/
theorem witness_ReleaseGrantsTheWindow :
    (Block.reset.setArgWin 0xFFFFFFFF#32).winOp ≤ 0 ∧
      (0 < (Block.reset.setArgWin 1).winOp ∧
        (atTime 0xFFFFFFFFFFFFFFFE).now.toNat + (Block.reset.setArgWin 1).winOp.toNat < 2 ^ 64) ∧
        2 ^ 64 ≤ (atTime 0xFFFFFFFFFFFFFFFF).now.toNat + (Block.reset.setArgWin 1).winOp.toNat := by decide

/-- Held or expired, and at the deadline. -/
theorem witness_RefreshReturnsAndReportsTheToken :
    Block.reset.HeldAt 0 ∧ (released 10).HeldAt 11 ∧ ¬ (released 10).HeldAt 10 := by unfold Block.HeldAt; decide

theorem witness_NewMessageReplacesOrKeepsTheOutboundBuffer :
    (staged 7 500 [0x41]).verdict = .pass ∧ (staged (-5) 0 []).verdict = .badId := by decide

/-- Denied, faulted, sent without and with a window: TRANSMIT takes any operands. -/
theorem witness_TransmitSendsTheOutboundBufferWhileHeld :
    ¬ (released 10).HeldAt 10 ∧
      (Block.reset.HeldAt 0 ∧ ({ ok := false, sent := some 0 } : TxReply).ok = false) ∧
        (Block.reset.HeldAt 0 ∧ Env.initial.txReply.ok = true ∧ Block.reset.winOp ≤ 0) ∧
          (Block.reset.setArgWin 1).HeldAt 0xFFFFFFFFFFFFFFFE ∧ 0 < (Block.reset.setArgWin 1).winOp ∧
            (atTime 0xFFFFFFFFFFFFFFFE).now.toNat + (Block.reset.setArgWin 1).winOp.toNat < 2 ^ 64 := by
  unfold Block.HeldAt; decide

/-- The same four cases with operands that pass. -/
theorem witness_SendMessageSendsTheFrameOrTheStaleBuffer_pass :
    ((staged 5 0 [1]).setToken false 10).verdict = .pass ∧ ¬ ((staged 5 0 [1]).setToken false 10).HeldAt 10 ∧
      ((staged 5 0 [1]).verdict = .pass ∧ (staged 5 0 [1]).HeldAt 0 ∧ (staged 5 0 [1]).winOp ≤ 0) ∧
        (staged 5 65535 [1]).verdict = .pass ∧ (staged 5 65535 [1]).HeldAt 0 ∧ 0 < (staged 5 65535 [1]).winOp ∧
          (atTime 0).now.toNat + (staged 5 65535 [1]).winOp.toNat < 2 ^ 64 := by unfold Block.HeldAt; decide

/-- The same four cases with operands that fail (SD2, SD3). -/
theorem witness_SendMessageSendsTheFrameOrTheStaleBuffer_fail :
    ((staged 256 0 []).setToken false 10).verdict = .badId ∧ ¬ ((staged 256 0 []).setToken false 10).HeldAt 10 ∧
      ((staged 256 0 []).verdict = .badId ∧ (staged 256 0 []).HeldAt 0 ∧ (staged 256 0 []).winOp ≤ 0) ∧
        (staged 5 65536 []).verdict = .badWin ∧ (staged 5 65536 []).HeldAt 0 ∧ 0 < (staged 5 65536 []).winOp ∧
          (atTime 0).now.toNat + (staged 5 65536 []).winOp.toNat < 2 ^ 64 := by unfold Block.HeldAt; decide

/-- A command that completes in its write, and one that only starts. -/
theorem witness_CommandsCompleteWithinTheirWrite :
    (∃ t, exec .encode State.reset = .next t) ∧ (∃ t, exec .listen State.reset = .next t) ∧ State.reset.blk.fsm = .idle :=
  ⟨⟨_, rfl⟩, ⟨_, rfl⟩, rfl⟩

theorem witness_TransportFaultIsFatal :
    (Block.reset.HeldAt 0 ∧ (world Block.reset { Env.initial with txReply := ⟨false, none⟩ }).env.txReply.ok = false) ∧
      HostWrites (writes 0x000#14 7#32 (world fatalBlock)) 0x000#14 7#32 (world fatalBlock) ∧ fatalBlock.fatal = true :=
  ⟨⟨.inl rfl, rfl⟩, writes_next _ _ _ rfl, rfl⟩

/-- A full inbound buffer, and one with room for one byte. -/
def filled (n : Nat) : Block := listening.setInBuf (List.replicate n 0x55)

theorem filled_length (n : Nat) : (filled n).inBuf.length = n := List.length_replicate

/-- Completion, a byte read with and without room, and the spin. -/
theorem witness_ListenIterationRefreshesThenCompletesReadsOrSpins :
    (TurnNext (takes .block (world listening)) .block (world listening) ∧ listening.HeldAt 0 ∧
        Env.initial.rxWaiting = 0 ∧ listening.fsm = .listen ∧ (Block.reset.setFsm .listenMsg).HeldAt 0) ∧
      (TurnNext (takes .block (world (filled 1023) { Env.initial with rxQueue := [1] })) .block
          (world (filled 1023) { Env.initial with rxQueue := [1] }) ∧
        0 < ({ Env.initial with rxQueue := [1] } : Env).rxWaiting ∧ (filled 1023).inBuf.length < 1024) ∧
        1024 ≤ (filled 1024).inBuf.length ∧
          TurnNext (takes .block (world ((released 10).setFsm .listenMsg) (atTime 10))) .block
              (world ((released 10).setFsm .listenMsg) (atTime 10)) ∧
            ¬ ((released 10).setFsm .listenMsg).HeldAt 10 ∧ (atTime 10).rxWaiting = 0 := by
  refine ⟨⟨takes_next _ _, .inl rfl, rfl, rfl, .inl rfl⟩, ⟨takes_next _ _, by decide, ?_⟩, ?_, takes_next _ _, ?_, rfl⟩
  · rw [filled_length]; decide
  · rw [filled_length]
  · unfold Block.HeldAt; decide

/-- L8: an iteration at the deadline. -/
theorem witness_ListenCompletesExactlyWhenHeldAndQuiet :
    ∃ t, TurnNext (takes .block (world ((released 10).setFsm .listen) (atTime 10))) .block
        (world ((released 10).setFsm .listen) (atTime 10)) ∧
      ((released 10).setFsm .listen).fsm ≠ .idle ∧ step (takes .block (world ((released 10).setFsm .listen) (atTime 10))) = .next t ∧
        ((released 10).setFsm .listen).tokHeld = false ∧
          (atTime 10).now.toNat ≤ ((released 10).setFsm .listen).tokDl.toNat :=
  ⟨_, takes_next _ _, by decide, rfl, rfl, by decide⟩

/-- A frame and none. -/
theorem witness_ListenMessageStoresTheFrameFound :
    (TurnNext (takes .block (world ((Block.reset.setFsm .listenMsg).setInBuf bytes5))) .block
        (world ((Block.reset.setFsm .listenMsg).setInBuf bytes5)) ∧
      ((Block.reset.setFsm .listenMsg).setInBuf bytes5).HeldAt 0 ∧ Env.initial.rxWaiting = 0 ∧
        scanFn ((Block.reset.setFsm .listenMsg).setInBuf bytes5).inBuf = .frame 5 [1, 2, 3]) ∧
      scanFn ((Block.reset.setFsm .listenMsg).setInBuf [1, 2, 3]).inBuf = .incomplete :=
  ⟨⟨takes_next _ _, .inl rfl, rfl, by decide⟩, by decide⟩

theorem witness_GetMessageConsumesTheLastMessage :
    Block.reset.lastId = 0x00#8 ∧ (Block.reset.setLast 7 [0xC0, 0xDE]).lastId ≠ 0x00#8 := by decide

theorem witness_AMessageIsReturnedOnce :
    (world (Block.reset.setLast 7 [0xC0, 0xDE])).blk.lastId ≠ 0x00#8 ∧
      ∃ t, exec .getMessage (world (Block.reset.setLast 7 [0xC0, 0xDE])) = .next t ∧ t.blk.SameLast State.reset.blk :=
  ⟨by decide, _, rfl, rfl, rfl⟩

theorem witness_CommandsLeaveOperandsFlagsAndInboundBuffer :
    ∃ t, exec .transmit (world (staged 5 500 [1])) = .next t := ⟨_, rfl⟩

/-- A LISTEN with two waiting bytes that fill `inbuf` to its capacity. -/
def draining : State := world (filled 1022) { Env.initial with rxQueue := [7, 8], turns := List.replicate 3 .block }

theorem witness_ListenDrainsTheQueueAndCompletes :
    draining.blk.fsm = .listen ∧ draining.blk.tokHeld = true ∧ draining.env.resetAsserted = false ∧
      draining.env.rxReport = none ∧ draining.blk.inBuf.length + draining.env.rxQueue.length ≤ 1024 ∧
        draining.env.turns = List.replicate (draining.env.rxQueue.length + 1) .block ++ [] :=
  ⟨rfl, rfl, rfl, rfl, by simp [draining, world, filled_length], rfl⟩

/-- A LISTEN_MESSAGE with the frame of RT1 in the transport. -/
def receiving : State :=
  world (Block.reset.setFsm .listenMsg) { Env.initial with rxQueue := bytes5, turns := List.replicate 11 .block }

theorem witness_AFrameSentIsTheMessageReceived :
    validate 5 0 [1, 2, 3] = .pass ∧ (0 : Int) < 5 ∧ ([1, 2, 3] : List Int).length ≤ 256 ∧
      (∀ j, window3 (([1, 2, 3] : List Int).map operandByte) j ≠ endMarker) ∧
        (([1, 2, 3] : List Int).map operandByte).getLast? ≠ some 0xFE#8 ∧
          receiving.blk.fsm = .listenMsg ∧ receiving.blk.tokHeld = true ∧ receiving.blk.inBuf = [] ∧
            receiving.env.resetAsserted = false ∧ receiving.env.rxReport = none ∧
              receiving.env.rxQueue = frame 5 0 [1, 2, 3] ∧
                receiving.env.turns = List.replicate ((frame 5 0 [1, 2, 3]).length + 1) .block ++ [] :=
  ⟨by decide, by decide, by decide, no_end_run (by decide), by decide, rfl, rfl, rfl, rfl, rfl, by decide, by decide⟩

theorem witness_ResetOverridesEverythingButTheTransport :
    TurnNext (takes (.env .assertReset) (world listening)) (.env .assertReset) (world listening) ∧
      (TurnNext (takes .host (world Block.reset { Env.initial with resetAsserted := true })) .host
          (world Block.reset { Env.initial with resetAsserted := true }) ∧
        (world Block.reset { Env.initial with resetAsserted := true }).env.resetAsserted = true) ∧
        TurnNext (takes (.env .releaseReset) State.reset) (.env .releaseReset) State.reset :=
  ⟨takes_next _ _, ⟨takes_next _ _, rfl⟩, takes_next _ _⟩

theorem witness_EnvironmentMovesLeaveTheBlock :
    TurnNext (takes (.env (.clock 1501)) (world (released 1500))) (.env (.clock 1501)) (world (released 1500)) ∧
      TurnNext (takes (.env (.receive bytes5)) State.reset) (.env (.receive bytes5)) State.reset :=
  ⟨takes_next _ _, takes_next _ _⟩

theorem reset_block_inv : Block.reset.Inv :=
  ⟨by decide, by decide, by decide, by decide, .inl rfl, by decide, by decide⟩

theorem fatal_block_inv : fatalBlock.Inv :=
  ⟨by decide, by decide, by decide, by decide, .inl rfl, fun _ => rfl, by decide⟩

/-- A host's write of a word to `CMD` at reset. -/
theorem witness_EveryStepKeepsTheInvariants :
    ∃ t, (writes 0x000#14 1#32 State.reset).Inv ∧ step (writes 0x000#14 1#32 State.reset) = .next t :=
  ⟨_, ⟨reset_block_inv, fun h => by cases h⟩, rfl⟩

/-- Reset, and a state one step later. -/
theorem witness_ReachableStatesMeetTheInvariants :
    Reachable State.reset ∧ ∃ t, step (writes 0x008#14 7#32 State.reset) = .next t ∧ Reachable t :=
  ⟨.start _, _, rfl, .step (writes 0x008#14 7#32 State.reset) _ (.start _) rfl⟩

/-- The token returns by a REFRESH and in a listen iteration, leaves by a RELEASE, and a RELEASE moves a deadline. -/
theorem witness_TokenMovesOnlyByTimeReleaseOrReset :
    (∃ t, step (writes 0x000#14 4#32 (world (released 10) (atTime 11))) = .next t ∧ t.blk ≠ Block.reset ∧
        (released 10).tokHeld = false ∧ t.blk.tokHeld = true) ∧
      (∃ t, step (takes .block (world ((released 10).setFsm .listen) { atTime 11 with rxQueue := [9] })) = .next t ∧
        t.blk ≠ Block.reset ∧ ((released 10).setFsm .listen).tokHeld = false ∧ t.blk.tokHeld = true) ∧
      (∃ t, step (writes 0x000#14 3#32 (world (Block.reset.setArgWin 5) (atTime 7))) = .next t ∧ t.blk ≠ Block.reset ∧
        (Block.reset.setArgWin 5).tokHeld = true ∧ t.blk.tokHeld = false) ∧
      ∃ t, step (writes 0x000#14 3#32 (world ((released 10).setArgWin 5) (atTime 7))) = .next t ∧ t.blk ≠ Block.reset ∧
        t.blk.tokDl ≠ ((released 10).setArgWin 5).tokDl :=
  ⟨⟨_, rfl, fun h => absurd (congrArg (fun b => b.res.op) h) (by decide), rfl, rfl⟩,
    ⟨_, rfl, fun h => absurd (congrArg (fun b => b.inBuf) h) (by decide), rfl, rfl⟩,
    ⟨_, rfl, fun h => absurd (congrArg (fun b => b.res.op) h) (by decide), rfl, rfl⟩,
    ⟨_, rfl, fun h => absurd (congrArg (fun b => b.res.op) h) (by decide), by decide⟩⟩

theorem witness_FatalStandsUntilReset :
    ∃ t, (writes 0x000#14 7#32 (world fatalBlock)).Inv ∧ fatalBlock.fatal = true ∧
      step (writes 0x000#14 7#32 (world fatalBlock)) = .next t :=
  ⟨_, ⟨fatal_block_inv, fun h => by cases h⟩, rfl, rfl⟩

/-- A NEW_MESSAGE that queues a frame, a TRANSMIT and a SEND_MESSAGE that clear one, and reset. -/
theorem witness_OutboundBufferHoldsAFrameOrIsCleared :
    (∃ t, step (writes 0x000#14 6#32 (world (staged 1 0 [1, 2]))) = .next t ∧ t.blk.outBuf.length = 9) ∧
      (∃ t, step (writes 0x000#14 7#32 (world (Block.reset.setOutBuf [9]))) = .next t ∧ t.blk.outBuf = []) ∧
      (∃ t, step (writes 0x000#14 5#32 (world ((staged 256 0 []).setOutBuf [9]))) = .next t ∧ t.blk.outBuf = []) ∧
      ∃ t, step (takes (.env .assertReset) (world (Block.reset.setOutBuf [9]))) = .next t ∧ t.blk = Block.reset :=
  ⟨⟨_, rfl, by decide⟩, ⟨_, rfl, rfl⟩, ⟨_, rfl, by decide⟩, _, rfl, rfl⟩

/-- An iteration that reads, one that stores a message and clears `inbuf`, a GET_MESSAGE that clears the message, and
reset. -/
theorem witness_InboundBufferAndLastMessageChangeOnlyByListening :
    (∃ t, step (takes .block (world listening { Env.initial with rxQueue := [9] })) = .next t ∧ t.blk.inBuf = [9]) ∧
      (∃ t, step (takes .block (world ((Block.reset.setFsm .listenMsg).setInBuf bytes5))) = .next t ∧
        t.blk.lastId = 5 ∧ t.blk.inBuf = []) ∧
      (∃ t, step (writes 0x000#14 0x0A#32 (world (Block.reset.setLast 5 [7]))) = .next t ∧
        t.blk.lastId = 0 ∧ t.blk.res.buf = [7]) ∧
      ∃ t, step (takes (.env .assertReset) (world ((Block.reset.setLast 5 [7]).setInBuf [9]))) = .next t ∧
        t.blk = Block.reset :=
  ⟨⟨_, rfl, rfl⟩, ⟨_, rfl, by decide⟩, ⟨_, rfl, by decide⟩, _, rfl, rfl⟩

/-- A step that writes the transport. -/
theorem witness_TransportDirectionsAreIndependent :
    ∃ t, step (writes 0x000#14 7#32 State.reset) = .next t ∧ t.env.txLog.length = 1 := ⟨_, rfl, rfl⟩

/-- Each refusal. -/
theorem witness_StepsAreRefusedOnlyOutsideTheRules :
    step (writes 0x000#14 3#32 (world (Block.reset.setArgWin 1) (atTime 0xFFFFFFFFFFFFFFFF))) = .refused .deadlineOverflow ∧
      step (takes .block (world listening { Env.initial with rxReport := some 1 })) = .refused .rxNothingToRead ∧
        step (takes (.env .resetInTransaction) State.reset) = .refused .resetInTransaction := ⟨rfl, rfl, rfl⟩

end Sys2Proof.Tests
end

section
/-! PROOFS. The operands of R70 as integers: what `sext32` is in terms of the register's unsigned value, and its range. -/

namespace Sys2Proof.Machine

/-- R9: two's complement written out by the unsigned value. -/
theorem sext32_eq_ite_toNat (v : Word) :
    sext32 v = if v.toNat < 2 ^ 31 then (v.toNat : Int) else (v.toNat : Int) - 2 ^ 32 := by
  have two_mul_lt : 2 * v.toNat < 2 ^ 32 ↔ v.toNat < 2 ^ 31 := by omega
  simp only [sext32, BitVec.toInt_eq_toNat_cond, two_mul_lt, Nat.cast_pow, Nat.cast_ofNat]

theorem sext32_mem_range (v : Word) : -2 ^ 31 ≤ sext32 v ∧ sext32 v < 2 ^ 31 :=
  ⟨BitVec.le_toInt v, BitVec.toInt_lt⟩

/-- Settles O17: each operand is `sext32` of its register, and `durOp` is `winOp` by definition. -/
theorem operandsAreSignExtendedRegisters : Obligations.OperandsAreSignExtendedRegisters := fun b =>
  ⟨sext32_eq_ite_toNat b.argId, sext32_eq_ite_toNat b.argWin, rfl,
    sext32_mem_range b.argId, sext32_mem_range b.argWin⟩

end Sys2Proof.Machine
end

section
/-! PROOFS. What each command can do, said once: `CommandDid` lists the blocks a command can leave (R77 to R101), and
`exec_did` is the inversion the claims about commands split on. -/

namespace Sys2Proof.Machine

/-! ## The arbiter's transitions -/

/-- A refresh touches `tok_held` alone (R87). -/
theorem Block.refreshFn_eq_setToken (b : Block) (t : Timestamp) :
    b.refreshFn t = b.setToken (b.refreshFn t).tokHeld b.tokDl := by
  obtain ⟨-, -, h⟩ | ⟨-, h⟩ := b.refreshFn_cases t <;> rw [h] <;> rfl

/-- A release that has a meaning starts the window `t + d`, or leaves the block for `d <= 0` (R86). -/
theorem Block.releaseFn_eq_some {b c : Block} {d : Int} {t : Timestamp} (h : b.releaseFn d t = some c) :
    c = b ∨ (0 < d ∧ ∃ dl : Timestamp, dl.toNat = t.toNat + d.toNat ∧ c = b.setToken false dl) := by
  obtain ⟨-, h'⟩ | ⟨hd, hfit, h'⟩ | ⟨-, -, h'⟩ := b.releaseFn_cases d t <;> rw [h'] at h <;> cases h
  · exact .inl rfl
  · exact .inr ⟨hd, _, deadline_toNat hfit, rfl⟩

/-- What command `i`, answering `ok`, makes of the token of `b` at time `now`: it leaves it, returns it after its
deadline, or grants the window of `ARG_WIN` (R86, R87). -/
inductive TokenStep (i : Instr) (ok : Bool) (b : Block) (now : Timestamp) : Bool → Timestamp → Prop where
  | kept : TokenStep i ok b now b.tokHeld b.tokDl
  | returned : i = .refresh ∨ i = .sendMessage ∨ i = .transmit → b.tokHeld = false → b.tokDl.toNat < now.toNat →
      TokenStep i ok b now true b.tokDl
  | granted (dl : Timestamp) : i = .release ∨ i = .sendMessage ∨ i = .transmit → ok = true → 0 < b.winOp →
      dl.toNat = now.toNat + b.winOp.toNat → TokenStep i ok b now false dl

/-- A command that refreshes leaves the token or returns it (R87). -/
theorem tokenStep_refreshFn {i : Instr} (ok : Bool) (b : Block) (now : Timestamp)
    (hi : i = .refresh ∨ i = .sendMessage ∨ i = .transmit) :
    TokenStep i ok b now (b.refreshFn now).tokHeld b.tokDl := by
  obtain ⟨hheld, hdl, h⟩ | ⟨-, h⟩ := b.refreshFn_cases now <;> rw [h]
  · exact .returned hi hheld hdl
  · exact .kept

/-! ## Commands -/

/-- The bytes a command of `b` can report: none, the operand frame, a scanned payload, the outbound buffer or the last
message. -/
inductive Block.Reports (b : Block) : List Byte → Prop where
  | nothing : b.Reports []
  | operandFrame : b.verdict = .pass → b.Reports b.operandFrame
  | scanned (id : Byte) (p : List Byte) : scanFn b.inBuf = .frame id p → b.Reports p
  | outBuf : b.Reports b.outBuf
  | lastPl : b.Reports b.lastPl

/-- The block `c` that command `i` can leave from block `b` at time `now`. -/
inductive CommandDid (i : Instr) (b : Block) (now : Timestamp) : Block → Prop where
  /-- The token and the result change: ENCODE, SCAN, RELEASE, REFRESH, a NEW_MESSAGE or a GET_MESSAGE that fails. -/
  | reported (held : Bool) (dl : Timestamp) (r : Result) : i ≠ .listen ∧ i ≠ .listenMessage → r.op = opcode i →
      b.Reports r.buf → TokenStep i r.ok b now held dl → CommandDid i b now ((b.setToken held dl).setRes r)
  /-- NEW_MESSAGE queues the operand frame (R92). -/
  | queued (r : Result) : i = .newMessage → b.verdict = .pass → r.op = opcode i → r.buf = b.operandFrame →
      CommandDid i b now ((b.setOutBuf b.operandFrame).setRes r)
  /-- A send attempt, which clears `outbuf` whatever its outcome, and sets FATAL only on a fault (R93). -/
  | sent (held : Bool) (dl : Timestamp) (fatal : Bool) (r : Result) : i = .sendMessage ∨ i = .transmit →
      r.op = opcode i → b.Reports r.buf → TokenStep i r.ok b now held dl → fatal = b.fatal ∨ r.cause = .txFault →
      CommandDid i b now ((((b.setToken held dl).setFatal fatal).setOutBuf []).setRes r)
  /-- A listen starts (R97, R100). -/
  | started (f : Fsm) : i = .listen ∨ i = .listenMessage → f ≠ .idle → CommandDid i b now (b.setFsm f)
  /-- GET_MESSAGE returns the last message and clears it (R101). -/
  | consumed : i = .getMessage → b.lastId ≠ 0x00#8 →
      CommandDid i b now ((b.result i true .pass .none b.lastId b.lastPl).setLast 0x00#8 [])

/-- The encode step reports a frame or nothing, and the verdict decides which (R77, R92). -/
theorem Block.encodeResult_cases (b : Block) (i : Instr) :
    ∃ r : Result, b.encodeResult i = b.setRes r ∧ r.op = opcode i ∧ b.Reports r.buf ∧
      (b.verdict = .pass → r.buf = b.operandFrame) := by
  unfold Block.encodeResult
  cases hv : b.verdict
  case pass => exact ⟨_, rfl, rfl, .operandFrame hv, fun _ => rfl⟩
  all_goals exact ⟨_, rfl, rfl, .nothing, fun h => by cases h⟩

/-- A scan of `inbuf` reports the payload found or nothing (R84). -/
theorem Block.scanResult_cases (b : Block) (i : Instr) :
    ∃ r : Result, b.scanResult i (scanFn b.inBuf) = b.setRes r ∧ r.op = opcode i ∧ b.Reports r.buf := by
  cases hs : scanFn b.inBuf with
  | frame id p => exact ⟨_, rfl, rfl, .scanned id p hs⟩
  | incomplete => exact ⟨_, rfl, rfl, .nothing⟩

/-- A send attempt that answers is a `transmit_fn` that answers, with its result written (R94, R95). -/
theorem sendAttempt_inversion {i : Instr} {val : Verdict} {id : Byte} {d : Int} {now : Timestamp} {s t : State}
    (h : sendAttempt i val id d now s = .next t) :
    ∃ out s', transmitFn d now s = some (out, s') ∧
      t = s'.setBlk (s'.blk.result i out.ok val out.cause id out.buf) := by
  unfold sendAttempt at h
  cases htx : transmitFn d now s with
  | none => rw [htx] at h; cases h
  | some p => rw [htx] at h; cases h; exact ⟨p.1, p.2, rfl, rfl⟩

/-- A send attempt of the bytes `seq` from block `b` (R93). `seq` is `b.outBuf`, or the frame SEND_MESSAGE has just put
there. -/
theorem sendAttempt_did {i : Instr} {val : Verdict} {id : Byte} {b : Block} {seq : List Byte} {e : Env} {t : State}
    (hi : i = .sendMessage ∨ i = .transmit) (hseq : b.Reports seq)
    (h : sendAttempt i val id b.winOp e.now ⟨b.setOutBuf seq, e⟩ = .next t) : CommandDid i b e.now t.blk := by
  obtain ⟨out, s', htx, rfl⟩ := sendAttempt_inversion h
  have hrefresh := (b.setOutBuf seq).refreshFn_eq_setToken e.now
  have hstep (ok : Bool) : TokenStep i ok b e.now ((b.setOutBuf seq).refreshFn e.now).tokHeld b.tokDl := by
    have hheld : ((b.setOutBuf seq).refreshFn e.now).tokHeld = (b.refreshFn e.now).tokHeld := by
      rw [Bool.eq_iff_iff, Block.refreshFn_tokHeld, Block.refreshFn_tokHeld]; rfl
    rw [hheld]; exact tokenStep_refreshFn ok b e.now (.inr hi)
  generalize ((b.setOutBuf seq).refreshFn e.now).tokHeld = held at hrefresh hstep
  obtain ⟨-, h'⟩ | ⟨-, -, h'⟩ | ⟨c, -, -, hrel, h'⟩ | ⟨-, -, -, h'⟩ := transmitFn_cases b.winOp e.now ⟨b.setOutBuf seq, e⟩ <;>
    rw [h'] at htx <;> cases htx
  · rw [hrefresh]; exact .sent held b.tokDl b.fatal _ hi rfl .nothing (hstep _) (.inl rfl)
  · rw [hrefresh]; exact .sent held b.tokDl true _ hi rfl .nothing (hstep _) (.inr rfl)
  · rw [hrefresh] at hrel ⊢
    obtain rfl | ⟨hwin, dl, hdl, rfl⟩ := Block.releaseFn_eq_some hrel
    · exact .sent held b.tokDl b.fatal _ hi rfl hseq (hstep _) (.inl rfl)
    · exact .sent false dl b.fatal _ hi rfl hseq (.granted dl (.inr hi) rfl hwin hdl) (.inl rfl)

/-- Everything a command that answers a next state can do to the block. -/
theorem exec_did {i : Instr} {s t : State} (h : exec i s = .next t) : CommandDid i s.blk s.env.now t.blk := by
  obtain ⟨b, e⟩ := s
  have reported {i : Instr} {r : Result} (hi : i ≠ .listen ∧ i ≠ .listenMessage) (hop : r.op = opcode i)
      (hbuf : b.Reports r.buf) : CommandDid i b e.now (b.setRes r) := .reported b.tokHeld b.tokDl r hi hop hbuf .kept
  cases i with
  | encode =>
    cases h
    obtain ⟨r, hr, hop, hbuf, -⟩ := b.encodeResult_cases .encode
    show CommandDid .encode b e.now (b.encodeResult .encode)
    rw [hr]; exact reported (by decide) hop hbuf
  | scan =>
    cases h
    obtain ⟨r, hr, hop, hbuf⟩ := b.scanResult_cases .scan
    show CommandDid .scan b e.now (b.scanResult .scan (scanFn b.inBuf))
    rw [hr]; exact reported (by decide) hop hbuf
  | release =>
    replace h : execRelease ⟨b, e⟩ = .next t := h
    unfold execRelease at h
    cases hrel : b.releaseFn b.durOp e.now with
    | none => rw [hrel] at h; cases h
    | some c =>
      rw [hrel] at h; cases h
      obtain rfl | ⟨hwin, dl, hdl, rfl⟩ := Block.releaseFn_eq_some hrel
      · exact reported (by decide) rfl .nothing
      · exact .reported false dl _ (by decide) rfl .nothing (.granted dl (.inl rfl) (decide_eq_true hwin) hwin hdl)
  | refresh =>
    cases h
    show CommandDid .refresh b e.now ((b.refreshFn e.now).setRes _)
    rw [b.refreshFn_eq_setToken e.now]
    exact .reported _ _ _ (by decide) rfl .nothing (tokenStep_refreshFn _ b e.now (.inl rfl))
  | sendMessage =>
    replace h : execSendMessage ⟨b, e⟩ = .next t := h
    unfold execSendMessage at h
    split at h
    next hv => exact sendAttempt_did (.inl rfl) (.operandFrame hv) h
    next => exact sendAttempt_did (.inl rfl) .outBuf h
  | newMessage =>
    obtain ⟨r, hr, hop, hbuf, hframe⟩ := b.encodeResult_cases .newMessage
    cases h
    show CommandDid .newMessage b e.now
      (if b.verdict = .pass then (b.encodeResult .newMessage).setOutBuf b.operandFrame else b.encodeResult .newMessage)
    rw [hr]
    split
    next hv => exact .queued r rfl hv hop (hframe hv)
    next => exact reported (by decide) hop hbuf
  | transmit => exact sendAttempt_did (.inr rfl) .outBuf h
  | listen => cases h; exact .started .listen (.inl rfl) (by decide)
  | listenMessage => cases h; exact .started .listenMsg (.inr rfl) (by decide)
  | getMessage =>
    replace h : execGetMessage ⟨b, e⟩ = .next t := h
    unfold execGetMessage at h
    split at h
    next => cases h; exact reported (by decide) rfl .nothing
    next hid => cases h; exact .consumed rfl hid

/-- `exec_did` for a step's command, which runs at the state with the host's turn and operation taken. -/
theorem exec_did_of_agrees {i : Instr} {s u t : State} (hblk : u.blk = s.blk) (henv : s.env.Agrees u.env)
    (h : exec i u = .next t) : CommandDid i s.blk s.env.now t.blk := by
  rw [← hblk, ← henv.now]; exact exec_did h

end Sys2Proof.Machine
end

section
/-! PROOFS. What a command leaves unchanged (R20, R59, R85), and that it completes within its write (R22, R56). -/

namespace Sys2Proof.Machine

/-- A `transmit_fn` changes the transmit record and the wire of the environment at most (R61, R93). -/
theorem transmitFn_env {d : Int} {now : Timestamp} {s s' : State} {out : SendOut}
    (h : transmitFn d now s = some (out, s')) :
    s'.env = { s.env with txLog := s'.env.txLog, wire := s'.env.wire } := by
  obtain ⟨-, h'⟩ | ⟨-, -, h'⟩ | ⟨c, -, -, -, h'⟩ | ⟨-, -, -, h'⟩ := transmitFn_cases d now s <;> rw [h'] at h <;> cases h <;>
    rfl

theorem sendAttempt_env {i : Instr} {val : Verdict} {id : Byte} {d : Int} {now : Timestamp} {s t : State}
    (h : sendAttempt i val id d now s = .next t) :
    t.env = { s.env with txLog := t.env.txLog, wire := t.env.wire } := by
  obtain ⟨out, s', htx, rfl⟩ := sendAttempt_inversion h
  exact transmitFn_env (s' := s') htx

/-- Every command leaves the environment but for the transmit record and the wire (R61). -/
theorem exec_env {i : Instr} {s t : State} (h : exec i s = .next t) :
    t.env = { s.env with txLog := t.env.txLog, wire := t.env.wire } := by
  cases i with
  | release =>
    replace h : execRelease s = .next t := h
    unfold execRelease at h
    split at h <;> cases h; rfl
  | sendMessage =>
    replace h : execSendMessage s = .next t := h
    unfold execSendMessage at h
    split at h
    · exact sendAttempt_env (s := s.setBlk (s.blk.setOutBuf s.blk.operandFrame)) h
    · exact sendAttempt_env h
  | transmit => exact sendAttempt_env (i := .transmit) h
  | getMessage =>
    replace h : execGetMessage s = .next t := h
    unfold execGetMessage at h
    split at h <;> cases h <;> rfl
  | encode | scan | refresh | newMessage | listen | listenMessage => cases h; rfl

/-- The operands, `inbuf` and the W1C flags are no command's to write (R20, R31). -/
theorem CommandDid.leaves {i : Instr} {b c : Block} {now : Timestamp} (h : CommandDid i b now c) :
    b.SameOperands c ∧ c.inBuf = b.inBuf ∧ c.inOvf = b.inOvf ∧ c.busErr = b.busErr ∧ c.cmdErr = b.cmdErr := by
  cases h <;> exact ⟨⟨rfl, rfl, rfl, rfl⟩, rfl, rfl, rfl, rfl⟩

/-- Settles O45, by the list of blocks a command can leave. -/
theorem commandsLeaveOperandsFlagsAndInboundBuffer : Obligations.CommandsLeaveOperandsFlagsAndInboundBuffer := by
  intro i s t h
  obtain ⟨hop, hin, hovf, hbus, hcmd⟩ := (exec_did h).leaves
  exact ⟨hop, hin, hovf, hbus, hcmd, exec_env h⟩

/-- A command other than the two listens leaves `fsm` and writes its opcode (R34, R56). -/
theorem CommandDid.completes {i : Instr} {b c : Block} {now : Timestamp} (h : CommandDid i b now c)
    (hi : i ≠ .listen ∧ i ≠ .listenMessage) : c.fsm = b.fsm ∧ c.res.op = opcode i := by
  cases h with
  | reported held dl r _ hop => exact ⟨rfl, hop⟩
  | queued r _ _ hop => exact ⟨rfl, hop⟩
  | sent held dl f r _ hop => exact ⟨rfl, hop⟩
  | started f hl => exact (hl.elim hi.1 hi.2).elim
  | consumed => exact ⟨rfl, rfl⟩

/-- The two listens start their loop and write no result (R97, R100). -/
theorem CommandDid.starts {i : Instr} {b c : Block} {now : Timestamp} (h : CommandDid i b now c)
    (hi : i = .listen ∨ i = .listenMessage) : c.fsm ≠ .idle ∧ c.res = b.res := by
  cases h with
  | started f _ hf => exact ⟨hf, rfl⟩
  | reported held dl r hl => exact (hi.elim hl.1 hl.2).elim
  | queued r hq => subst hq; simp at hi
  | sent held dl f r hs => obtain rfl | rfl := hs <;> simp at hi
  | consumed hg => subst hg; simp at hi

/-- Settles O37, by the list of blocks a command can leave. -/
theorem commandsCompleteWithinTheirWrite : Obligations.CommandsCompleteWithinTheirWrite := by
  intro i s t h hidle
  refine ⟨fun hi => ?_, (exec_did h).starts⟩
  obtain ⟨hfsm, hop⟩ := (exec_did h).completes hi
  exact ⟨hfsm.trans hidle, hop⟩

end Sys2Proof.Machine
end

section
/-! PROOFS. What one listen iteration can do (R98, R100), said once: `IterationDid` and its inversion. -/

namespace Sys2Proof.Machine

/-! ## A refresh leaves all but the token (R87) -/

section
variable (b : Block) (t : Timestamp)

@[simp] theorem Block.refreshFn_fsm : (b.refreshFn t).fsm = b.fsm := by rw [b.refreshFn_eq_setToken t]; rfl
@[simp] theorem Block.refreshFn_outBuf : (b.refreshFn t).outBuf = b.outBuf := by rw [b.refreshFn_eq_setToken t]; rfl
@[simp] theorem Block.refreshFn_inBuf : (b.refreshFn t).inBuf = b.inBuf := by rw [b.refreshFn_eq_setToken t]; rfl
@[simp] theorem Block.refreshFn_lastId : (b.refreshFn t).lastId = b.lastId := by rw [b.refreshFn_eq_setToken t]; rfl
@[simp] theorem Block.refreshFn_lastPl : (b.refreshFn t).lastPl = b.lastPl := by rw [b.refreshFn_eq_setToken t]; rfl

end

/-- A refresh leaves the last message (R87). -/
theorem Block.refreshFn_sameLast (b : Block) (t : Timestamp) : b.SameLast (b.refreshFn t) :=
  ⟨b.refreshFn_lastId t, b.refreshFn_lastPl t⟩

/-- The block and the receive queue that a listen iteration at time `now` can leave from block `b` and queue `q`. Every
iteration starts with a refresh. -/
inductive IterationDid (b : Block) (now : Timestamp) (q : List Byte) : Block → List Byte → Prop where
  /-- LISTEN completes and reports `inbuf` (R98). -/
  | listened (r : Result) : b.fsm = .listen → r.buf = b.inBuf →
      IterationDid b now q (((b.refreshFn now).setRes r).setFsm .idle) q
  /-- LISTEN_MESSAGE completes, stores and reports the frame found (R100). -/
  | stored (id : Byte) (r : Result) : b.fsm = .listenMsg → scanFn b.inBuf = .frame id r.buf →
      IterationDid b now q (((((b.refreshFn now).setRes r).setLast id r.buf).setInBuf []).setFsm .idle) q
  /-- LISTEN_MESSAGE completes and finds no frame (R100). -/
  | foundNothing (r : Result) : b.fsm = .listenMsg → r.buf = [] →
      IterationDid b now q ((((b.refreshFn now).setRes r).setInBuf []).setFsm .idle) q
  /-- The oldest byte of the queue is appended to `inbuf` (R26). -/
  | drained (x : Byte) (rest : List Byte) : q = x :: rest → b.inBuf.length < Config.inCap →
      IterationDid b now q ((b.refreshFn now).setInBuf (b.inBuf ++ [x])) rest
  /-- The oldest byte of the queue is dropped (R26). -/
  | dropped (x : Byte) (rest : List Byte) : q = x :: rest →
      IterationDid b now q ((b.refreshFn now).setInOvf true) rest
  | spun : IterationDid b now q (b.refreshFn now) q

/-- The end of a running loop, by the command that runs (R98, R100). -/
theorem iterationDid_listenComplete (b : Block) (now : Timestamp) (q : List Byte) (hrun : b.fsm ≠ .idle) :
    IterationDid b now q (b.refreshFn now).listenComplete q := by
  unfold Block.listenComplete Block.listenMessageComplete
  rw [Block.refreshFn_fsm, Block.refreshFn_inBuf]
  cases hfsm : b.fsm
  case idle => exact (hrun hfsm).elim
  case listen => exact .listened _ hfsm rfl
  case listenMsg =>
    cases hscan : scanFn b.inBuf with
    | frame id p => exact .stored id { buf := p, .. } hfsm hscan
    | incomplete => exact .foundNothing _ hfsm rfl

/-- Everything an iteration that answers a next state can do to the block and the receive queue. -/
theorem listenIteration_did {s t : State} (hrun : s.blk.fsm ≠ .idle) (h : listenIteration s = .next t) :
    IterationDid s.blk s.env.now s.env.rxQueue t.blk t.env.rxQueue := by
  obtain ⟨-, -, h'⟩ | ⟨x, e, -, hread, h'⟩ | ⟨-, -, h'⟩ | ⟨-, -, h'⟩ := listenIteration_cases s <;> rw [h'] at h <;> cases h
  · exact iterationDid_listenComplete _ _ _ hrun
  · obtain ⟨hq, -⟩ := Env.rxRead_eq_some.1 hread
    obtain ⟨hroom, hdrain⟩ | ⟨-, hdrain⟩ := (s.blk.refreshFn s.env.now).drain_cases x <;> simp only [hdrain]
    · rw [Block.refreshFn_inBuf] at hroom ⊢; exact .drained x _ hq hroom
    · exact .dropped x _ hq
  · exact .spun

/-- `listenIteration_did` for a step's iteration, which runs at the state with the block's turn taken. -/
theorem listenIteration_did_of_agrees {s u t : State} (hblk : u.blk = s.blk) (henv : s.env.Agrees u.env)
    (hrun : s.blk.fsm ≠ .idle) (h : listenIteration u = .next t) :
    IterationDid s.blk s.env.now s.env.rxQueue t.blk t.env.rxQueue := by
  rw [← hblk] at hrun ⊢
  rw [← henv.now, ← henv.rxQueue]
  exact listenIteration_did hrun h

/-- An iteration leaves the reset input. -/
theorem listenIteration_resetAsserted {s t : State} (h : listenIteration s = .next t) :
    t.env.resetAsserted = s.env.resetAsserted := by
  obtain ⟨-, -, h'⟩ | ⟨x, e, -, hread, h'⟩ | ⟨-, -, h'⟩ | ⟨-, -, h'⟩ := listenIteration_cases s <;> rw [h'] at h <;> cases h
  · rfl
  · obtain ⟨-, he⟩ := Env.rxRead_eq_some.1 hread
    rw [he]
  · rfl

/-- An iteration does not touch `outbuf` (R25). -/
theorem IterationDid.outBuf {b c : Block} {now : Timestamp} {q q' : List Byte} (h : IterationDid b now q c q') :
    c.outBuf = b.outBuf := by
  cases h <;> exact b.refreshFn_outBuf now

end Sys2Proof.Machine
end

section
/-! PROOFS. The invariants of R41: they hold after reset, and port accesses, commands and listen iterations keep them. -/

namespace Sys2Proof.Machine

/-! ## Lengths -/

/-- The payload operand is as long as `PL_LEN` says, up to the array's length (R30, R70). -/
theorem Block.plOp_length (b : Block) : b.plOp.length = min b.plLen.toNat Config.plCap := by
  simp [Block.plOp]

/-- The operand frame fits in `outbuf` (R65). -/
theorem Block.operandFrame_length_le (b : Block) : b.operandFrame.length ≤ Config.outCap := by
  have hpl : b.plOp.length ≤ 256 := b.plOp_length ▸ min_le_right _ _
  show (frame b.idOp b.winOp b.plOp).length ≤ 265
  rw [frame_length]
  split <;> omega

/-- A payload found in `s` has at most `len(s) - 7` bytes: START, the id and END are not in it (R78). -/
theorem scanFn_payload_length {s : List Byte} {id : Byte} {p : List Byte} (h : scanFn s = .frame id p) :
    p.length + 7 ≤ s.length := by
  unfold scanFn at h
  cases hi : startIndex s with
  | none => rw [hi] at h; cases h
  | some i =>
    simp only [hi] at h
    obtain ⟨id', rest, n, hbody, ⟨⟨hmin, hn, -⟩, -⟩, hscan⟩ | ⟨-, hscan⟩ := scanBody_cases (s.drop (i + 3)) <;>
      rw [hscan] at h <;> cases h
    have hmin : 4 ≤ n := hmin
    rw [List.length_drop] at hn
    rw [List.length_take]
    omega

/-- What a command reports fits in the result buffer (R34). -/
theorem Block.Reports.length_le {b : Block} {l : List Byte} (h : b.Reports l) (hinv : b.Inv) :
    l.length ≤ Config.resCap := by
  have hout : b.outBuf.length ≤ 265 := hinv.outLen
  have hin : b.inBuf.length ≤ 1024 := hinv.inLen
  have hlast : b.lastPl.length ≤ 1017 := hinv.lastLen
  show l.length ≤ 1024
  cases h with
  | nothing => exact Nat.zero_le _
  | operandFrame => exact b.operandFrame_length_le.trans (by decide)
  | scanned id p hscan => have := scanFn_payload_length hscan; omega
  | outBuf => omega
  | lastPl => omega

/-! ## The block's invariants -/

/-- The block after reset meets the invariants (R39, R41). -/
theorem Block.reset_inv : Block.reset.Inv where
  outLen := by decide
  inLen := by decide
  lastLen := by decide
  resLen := by decide
  outFramed := .inl rfl
  fatalIdle := fun _ => rfl
  plLen := by decide

/-- No invariant speaks of the token. -/
theorem Block.Inv.setToken {b : Block} (h : b.Inv) (held : Bool) (dl : Timestamp) : (b.setToken held dl).Inv :=
  ⟨h.outLen, h.inLen, h.lastLen, h.resLen, h.outFramed, h.fatalIdle, h.plLen⟩

theorem Block.Inv.refreshFn {b : Block} (h : b.Inv) (now : Timestamp) : (b.refreshFn now).Inv := by
  rw [b.refreshFn_eq_setToken now]; exact h.setToken _ _

theorem Block.Inv.setRes {b : Block} (h : b.Inv) {r : Result} (hr : r.buf.length ≤ Config.resCap) : (b.setRes r).Inv :=
  ⟨h.outLen, h.inLen, h.lastLen, hr, h.outFramed, h.fatalIdle, h.plLen⟩

theorem Block.Inv.setInBuf {b : Block} (h : b.Inv) {l : List Byte} (hl : l.length ≤ Config.inCap) : (b.setInBuf l).Inv :=
  ⟨h.outLen, hl, h.lastLen, h.resLen, h.outFramed, h.fatalIdle, h.plLen⟩

theorem Block.Inv.setLast {b : Block} (h : b.Inv) (id : Byte) {p : List Byte} (hp : p.length ≤ Config.lastCap) :
    (b.setLast id p).Inv :=
  ⟨h.outLen, h.inLen, hp, h.resLen, h.outFramed, h.fatalIdle, h.plLen⟩

theorem Block.Inv.setIdle {b : Block} (h : b.Inv) : (b.setFsm .idle).Inv :=
  ⟨h.outLen, h.inLen, h.lastLen, h.resLen, h.outFramed, fun _ => rfl, h.plLen⟩

/-- A host access that starts no command keeps the invariants: `PL_LEN` by its write rule (R30). -/
theorem Block.Inv.portChange {b c : Block} (h : b.Inv) (hc : b.PortChange c) : c.Inv where
  outLen := by rw [hc.outBuf]; exact h.outLen
  inLen := by rw [hc.inBuf]; exact h.inLen
  lastLen := by rw [hc.last.2]; exact h.lastLen
  resLen := by rw [hc.res]; exact h.resLen
  outFramed := by unfold Block.OutBufFramed; rw [hc.outBuf]; exact h.outFramed
  fatalIdle := by rw [hc.fatal, hc.fsm]; exact h.fatalIdle
  plLen := hc.plLen.elim (fun heq => by rw [heq]; exact h.plLen) id

/-- A command the gate lets through keeps the invariants: only a frame of operands that pass enters `outbuf`, and FATAL
is set only by a command that leaves the block idle. -/
theorem Block.Inv.commandDid {i : Instr} {b c : Block} {now : Timestamp} (h : b.Inv) (hfatal : b.fatal = false)
    (hidle : b.fsm = .idle) (hc : CommandDid i b now c) : c.Inv := by
  cases hc with
  | reported held dl r _ _ hbuf => exact (h.setToken held dl).setRes (hbuf.length_le h)
  | queued r _ hv _ hbuf =>
    have hlen := b.operandFrame_length_le
    exact ⟨hlen, h.inLen, h.lastLen, by rw [Block.setRes_res, hbuf]; exact hlen.trans (by decide),
      .inr ⟨b.idOp, b.winOp, b.plOp, hv, rfl⟩, h.fatalIdle, h.plLen⟩
  | sent held dl f r _ _ hbuf =>
    exact ⟨Nat.zero_le _, h.inLen, h.lastLen, hbuf.length_le h, .inl rfl, fun _ => hidle, h.plLen⟩
  | started f =>
    have hnot : b.fatal ≠ true := by simp [hfatal]
    exact ⟨h.outLen, h.inLen, h.lastLen, h.resLen, h.outFramed, fun hf => absurd hf hnot, h.plLen⟩
  | consumed => exact (h.setRes (Block.Reports.lastPl.length_le h)).setLast _ (Nat.zero_le _)

/-- A listen iteration keeps the invariants: `inbuf` grows only while it has room, and what it holds bounds what is
reported and stored. -/
theorem Block.Inv.iterationDid {b c : Block} {now : Timestamp} {q q' : List Byte} (h : b.Inv)
    (hc : IterationDid b now q c q') : c.Inv := by
  have href := h.refreshFn now
  have hin : b.inBuf.length ≤ 1024 := h.inLen
  cases hc with
  | listened r _ hbuf => exact (href.setRes (by rw [hbuf]; exact hin)).setIdle
  | stored id r _ hscan =>
    have hp := scanFn_payload_length hscan
    exact (((href.setRes (by show _ ≤ 1024; omega)).setLast id (by show _ ≤ 1017; omega)).setInBuf (Nat.zero_le _)).setIdle
  | foundNothing r _ hbuf => exact ((href.setRes (by rw [hbuf]; exact Nat.zero_le _)).setInBuf (Nat.zero_le _)).setIdle
  | drained x rest _ hroom => exact href.setInBuf (by rw [List.length_append]; exact hroom)
  | dropped =>
    exact ⟨href.outLen, href.inLen, href.lastLen, href.resLen, href.outFramed, href.fatalIdle, href.plLen⟩
  | spun => exact href

/-! ## The machine's invariants -/

/-- Settles O52: the reset input of `State.reset` is released, and its block is the reset block. -/
theorem resetStateMeetsTheInvariants : Obligations.ResetStateMeetsTheInvariants :=
  ⟨Block.reset_inv, fun _ => rfl⟩

/-- With reset released only the block's invariants are left to show (R18). -/
theorem State.Inv.of_released {s : State} (h : s.blk.Inv) (hr : s.env.resetAsserted = false) : s.Inv :=
  ⟨h, fun h' => by rw [hr] at h'; cases h'⟩

/-- Settles O53, by what the step was. -/
theorem everyStepKeepsTheInvariants : Obligations.EveryStepKeepsTheInvariants := by
  intro s t hs hstep
  cases step_inversion hstep with
  | port hport henv hr => exact .of_released (hs.blk.portChange hport) (henv.resetAsserted.trans hr)
  | env hblk _ _ _ hr => exact ⟨by rw [hblk]; exact hs.blk, fun h => hblk.trans (hs.reset (hr h))⟩
  | reset hblk => exact ⟨by rw [hblk]; exact Block.reset_inv, fun _ => hblk⟩
  | command i u hblk henv hfatal hidle hr hexec =>
    have hkept : t.env.resetAsserted = u.env.resetAsserted := by rw [exec_env hexec]
    exact .of_released (hs.blk.commandDid hfatal hidle (exec_did_of_agrees hblk henv hexec))
      (by rw [hkept, henv.resetAsserted, hr])
  | iteration u hblk henv hrun hr hiter =>
    exact .of_released (hs.blk.iterationDid (listenIteration_did_of_agrees hblk henv hrun hiter))
      (by rw [listenIteration_resetAsserted hiter, henv.resetAsserted, hr])

/-- Every state a run from reset reaches meets the invariants. -/
theorem Reachable.inv {s : State} (h : Reachable s) : s.Inv := by
  induction h with
  | start e => exact ⟨Block.reset_inv, fun _ => rfl⟩
  | step s t _ hstep ih => exact everyStepKeepsTheInvariants s t ih hstep

/-- Settles O54, from the invariants that every step keeps. -/
theorem reachableStatesMeetTheInvariants : Obligations.ReachableStatesMeetTheInvariants := by
  intro s h
  have hinv := h.inv.blk
  exact ⟨hinv.outLen, hinv.inLen, hinv.lastLen, hinv.resLen, hinv.outFramed, hinv.fatalIdle⟩

end Sys2Proof.Machine
end

section
/-! PROOFS. Whole-machine rules of the protocol state: what moves the token (R23), what FATAL freezes (R31), and what
changes the two buffers and the last message (R25 to R27). -/

namespace Sys2Proof.Machine

/-! ## The token -/

/-- How a step moved the token (R23): not at all, by reset, by a refresh after the deadline, or by the release of a
command that completes with OK. -/
inductive TokenMoved (s t : State) : Prop where
  | reset : t.blk = Block.reset → TokenMoved s t
  | kept : t.blk.tokHeld = s.blk.tokHeld → t.blk.tokDl = s.blk.tokDl → TokenMoved s t
  | returned : t.blk.tokHeld = true → t.blk.tokDl = s.blk.tokDl → s.blk.tokDl.toNat < s.env.now.toNat →
      (s.blk.fsm ≠ .idle ∨ (s.blk.fatal = false ∧
        (t.blk.res.op = 0x04#8 ∨ t.blk.res.op = 0x05#8 ∨ t.blk.res.op = 0x07#8))) → TokenMoved s t
  | granted : t.blk.tokHeld = false → 0 < s.blk.winOp → t.blk.tokDl.toNat = s.env.now.toNat + s.blk.winOp.toNat →
      s.blk.fsm = .idle → s.blk.fatal = false → t.blk.res.ok = true →
      (t.blk.res.op = 0x03#8 ∨ t.blk.res.op = 0x05#8 ∨ t.blk.res.op = 0x07#8) → TokenMoved s t

/-- A command moves the token as `TokenStep` says, and its result names it. -/
theorem CommandDid.token {i : Instr} {b c : Block} {now : Timestamp} (h : CommandDid i b now c) :
    (c.tokHeld = b.tokHeld ∧ c.tokDl = b.tokDl) ∨
      (c.res.op = opcode i ∧ TokenStep i c.res.ok b now c.tokHeld c.tokDl) := by
  cases h with
  | reported held dl r _ hop _ htok => exact .inr ⟨hop, htok⟩
  | sent held dl f r _ hop _ htok => exact .inr ⟨hop, htok⟩
  | queued | started | consumed => exact .inl ⟨rfl, rfl⟩

/-- An iteration refreshes and moves the token no further (R98). -/
theorem IterationDid.token {b c : Block} {now : Timestamp} {q q' : List Byte} (h : IterationDid b now q c q') :
    c.tokHeld = (b.refreshFn now).tokHeld ∧ c.tokDl = b.tokDl := by
  cases h <;> exact ⟨rfl, b.refreshFn_tokDl now⟩

/-- The token by what the step was. -/
theorem step_tokenMoved {s t : State} (hstep : step s = .next t) : TokenMoved s t := by
  cases step_inversion hstep with
  | port hport => exact .kept hport.tokHeld hport.tokDl
  | env hblk => exact .kept (by rw [hblk]) (by rw [hblk])
  | reset hblk => exact .reset hblk
  | command i u hblk henv hfatal hidle _ hexec =>
    have hdid := exec_did_of_agrees hblk henv hexec
    obtain ⟨hheld, hdl⟩ | ⟨hop, htok⟩ := hdid.token
    · exact .kept hheld hdl
    · generalize hheld : t.blk.tokHeld = held at htok
      generalize hdl : t.blk.tokDl = dl at htok
      cases htok with
      | kept => exact .kept hheld hdl
      | returned hi _ hpast =>
        refine .returned hheld hdl hpast (.inr ⟨hfatal, ?_⟩)
        rw [hop]; obtain rfl | rfl | rfl := hi <;> decide
      | granted _ hi hok hwin hsum =>
        refine .granted hheld hwin (by rw [hdl, hsum]) hidle hfatal hok ?_
        rw [hop]; obtain rfl | rfl | rfl := hi <;> decide
  | iteration u hblk henv hrun _ hiter =>
    have hdid := listenIteration_did_of_agrees hblk henv hrun hiter
    obtain ⟨hheld, hdl⟩ := hdid.token
    obtain ⟨_, hpast, href⟩ | ⟨_, href⟩ := s.blk.refreshFn_cases s.env.now <;> rw [href] at hheld
    · exact .returned hheld hdl hpast (.inl hrun)
    · exact .kept hheld hdl

/-- Settles O55, by how the step moved the token. -/
theorem tokenMovesOnlyByTimeReleaseOrReset : Obligations.TokenMovesOnlyByTimeReleaseOrReset := by
  intro s t hstep hreset
  cases step_tokenMoved hstep with
  | reset h => exact (hreset h).elim
  | kept hheld hdl =>
    refine ⟨fun hs ht => ?_, fun h => ?_⟩
    · rw [hheld, hs] at ht; cases ht
    · obtain hmoved | ⟨hs, ht⟩ := h
      · exact (hmoved hdl).elim
      · rw [hheld, hs] at ht; cases ht
  | returned hheld hdl hpast hcause =>
    refine ⟨fun _ _ => ⟨hpast, hcause⟩, fun h => ?_⟩
    obtain hmoved | ⟨-, ht⟩ := h
    · exact (hmoved hdl).elim
    · rw [hheld] at ht; cases ht
  | granted hheld hwin hdl hidle hfatal hok hop =>
    refine ⟨fun _ ht => ?_, fun _ => ⟨hheld, hwin, hdl, hidle, hfatal, hok, hop⟩⟩
    rw [hheld] at ht; cases ht

/-! ## FATAL -/

/-- Settles O56: FATAL closes the command gate, and by the invariants no loop runs beside it. -/
theorem fatalStandsUntilReset : Obligations.FatalStandsUntilReset := by
  intro s t hs hfatal hstep
  cases step_inversion hstep with
  | port h henv =>
    exact .inr ⟨h.fatal.trans hfatal, ⟨h.tokHeld, h.tokDl⟩, h.outBuf, h.inBuf, h.last, h.res, henv.txLog, henv.wire⟩
  | env hblk hlog hwire =>
    rw [hblk]
    exact .inr ⟨hfatal, ⟨rfl, rfl⟩, rfl, rfl, ⟨rfl, rfl⟩, rfl, hlog, hwire⟩
  | reset hblk => exact .inl hblk
  | command _ _ _ _ hclear => rw [hfatal] at hclear; cases hclear
  | iteration _ _ _ hrun => exact (hrun (hs.blk.fatalIdle hfatal)).elim

/-! ## The buffers and the last message -/

/-- A command leaves `outbuf`, clears it as a send, or replaces it by the frame of a NEW_MESSAGE (R25). -/
theorem CommandDid.outBuf {i : Instr} {b c : Block} {now : Timestamp} (h : CommandDid i b now c) :
    c.outBuf = b.outBuf ∨ (c.outBuf = [] ∧ (c.res.op = 0x05#8 ∨ c.res.op = 0x07#8)) ∨
      (b.verdict = .pass ∧ c.res.op = 0x06#8 ∧ c.outBuf = b.operandFrame) := by
  cases h with
  | reported | started | consumed => exact .inl rfl
  | sent held dl f r hi hop =>
    refine .inr (.inl ⟨rfl, ?_⟩)
    rw [Block.setRes_res, hop]
    obtain rfl | rfl := hi <;> decide
  | queued r hi hv hop => subst hi; exact .inr (.inr ⟨hv, hop, rfl⟩)

/-- Settles O57: no step but a command or reset touches `outbuf`. -/
theorem outboundBufferHoldsAFrameOrIsCleared : Obligations.OutboundBufferHoldsAFrameOrIsCleared := by
  intro s t hstep
  cases step_inversion hstep with
  | port hport => exact .inl hport.outBuf
  | env hblk => exact .inl (by rw [hblk])
  | reset hblk => exact .inr (.inr (.inl hblk))
  | command i u hblk henv hfatal hidle _ hexec =>
    have hdid := exec_did_of_agrees hblk henv hexec
    obtain hkept | ⟨hnil, hop⟩ | ⟨hv, hop, hframe⟩ := hdid.outBuf
    · exact .inl hkept
    · exact .inr (.inl ⟨hnil, hidle, hfatal, hop⟩)
    · exact .inr (.inr (.inr ⟨hv, hidle, hfatal, hop, hframe⟩))
  | iteration u hblk henv hrun _ hiter =>
    exact .inl (listenIteration_did_of_agrees hblk henv hrun hiter).outBuf

/-- `RES_STAT` as a number: its fields at their places (R33). -/
theorem Result.statWord_toNat (r : Result) :
    r.statWord.toNat = r.ok.toNat + 16 * r.val.code.toNat + 256 * r.cause.code.toNat + 65536 * r.op.toNat := by
  unfold Result.statWord
  simp only [append_toNat, bit_toNat, BitVec.toNat_ofNat]
  omega

/-- What a host sees of a result that a command has written (R33, R34). -/
theorem Block.showsResult_of_res {b : Block} {r : Result} {code : Nat} (hres : b.res = r)
    (hcode : r.ok.toNat + 16 * r.val.code.toNat + 256 * r.cause.code.toNat + 65536 * r.op.toNat = code) :
    b.ShowsResult code r.id r.buf := by
  subst hres
  exact ⟨b.res.statWord_toNat.trans hcode, rfl, rfl⟩

/-- A command leaves the last message, or is a GET_MESSAGE that returns it and clears it (R27, R101). -/
theorem CommandDid.last {i : Instr} {b c : Block} {now : Timestamp} (h : CommandDid i b now c) :
    b.SameLast c ∨
      (c.lastId = 0x00#8 ∧ c.lastPl = [] ∧ b.lastId ≠ 0x00#8 ∧ c.ShowsResult 0x000A0001 b.lastId b.lastPl) := by
  cases h with
  | reported | queued | sent | started => exact .inl ⟨rfl, rfl⟩
  | consumed hi hid =>
    subst hi
    exact .inr ⟨rfl, rfl, hid, Block.showsResult_of_res rfl (by simp [Block.result, opcode, Verdict.code, Cause.code])⟩

/-- An iteration leaves `inbuf`, appends the oldest waiting byte, or clears it as LISTEN_MESSAGE completes (R26). -/
theorem IterationDid.inBuf {b c : Block} {now : Timestamp} {q q' : List Byte} (h : IterationDid b now q c q') :
    c.inBuf = b.inBuf ∨ (∃ x, q = x :: q' ∧ c.inBuf = b.inBuf ++ [x]) ∨
      (c.inBuf = [] ∧ b.fsm = .listenMsg ∧ c.fsm = .idle) := by
  cases h with
  | listened | dropped | spun => exact .inl (b.refreshFn_inBuf now)
  | drained x rest hq => exact .inr (.inl ⟨x, hq, rfl⟩)
  | stored id r hfsm => exact .inr (.inr ⟨rfl, hfsm, rfl⟩)
  | foundNothing r hfsm => exact .inr (.inr ⟨rfl, hfsm, rfl⟩)

/-- An iteration leaves the last message, or stores the frame that a completing LISTEN_MESSAGE finds (R27). -/
theorem IterationDid.last {b c : Block} {now : Timestamp} {q q' : List Byte} (h : IterationDid b now q c q') :
    b.SameLast c ∨ (b.fsm = .listenMsg ∧ c.fsm = .idle ∧ scanFn b.inBuf = .frame c.lastId c.lastPl) := by
  cases h with
  | listened | foundNothing | drained | dropped | spun => exact .inl (b.refreshFn_sameLast now)
  | stored id r hfsm hscan => exact .inr ⟨hfsm, rfl, hscan⟩

/-- Settles O58: a command leaves `inbuf`, and an iteration reads one byte or completes. -/
theorem inboundBufferAndLastMessageChangeOnlyByListening :
    Obligations.InboundBufferAndLastMessageChangeOnlyByListening := by
  intro s t hstep
  cases step_inversion hstep with
  | port hport => exact ⟨.inl hport.inBuf, .inl hport.last⟩
  | env hblk => exact ⟨.inl (by rw [hblk]), .inl (by rw [hblk]; exact ⟨rfl, rfl⟩)⟩
  | reset hblk => exact ⟨.inr (.inr (.inr hblk)), .inr (.inr (.inr hblk))⟩
  | command i u hblk henv _ hidle _ hexec =>
    have hdid := exec_did_of_agrees hblk henv hexec
    obtain ⟨-, hin, -⟩ := hdid.leaves
    refine ⟨.inl hin, ?_⟩
    obtain hkept | ⟨hid, hpl, hne, hshow⟩ := hdid.last
    · exact .inl hkept
    · exact .inr (.inr (.inl ⟨hid, hpl, hidle, hne, hshow⟩))
  | iteration u hblk henv hrun _ hiter =>
    have hdid := listenIteration_did_of_agrees hblk henv hrun hiter
    constructor
    · obtain hkept | ⟨x, hq, hin⟩ | hcleared := hdid.inBuf
      · exact .inl hkept
      · exact .inr (.inl ⟨x, _, hq, rfl, hrun, hin⟩)
      · exact .inr (.inr (.inl hcleared))
    · obtain hkept | hstored := hdid.last
      · exact .inl hkept
      · exact .inr (.inl hstored)

end Sys2Proof.Machine
end

section
/-! PROOFS. Host transactions on STATUS and the payload registers (R16, R30, R32), and reset and the environment's moves
(R18, R39). -/

namespace Sys2Proof.Machine

/-! ## Host transactions -/

/-- The host's turn and operation are taken from the environment, not from the block. -/
theorem HostNext.blk_eq {s s' : State} {op : HostOp} (h : HostNext s op s') : s'.blk = s.blk := by rw [h.rest]; rfl

theorem HostNext.hostReads_eq {s s' : State} {op : HostOp} (h : HostNext s op s') :
    s'.env.hostReads = s.env.hostReads := by rw [h.rest]; rfl

/-- Settles O7: the port answers a read from the block, and a write is `portWrite` itself. -/
theorem hostTransactionIsServedInOneStep : Obligations.HostTransactionIsServedInOneStep := by
  refine ⟨fun s s' size off h => ?_, fun s s' size off v h => step_of_host h⟩
  rw [step_of_host h, ← h.blk_eq, ← h.hostReads_eq]; rfl

/-- A host's write of a register other than `CMD` is the map's write (R50). -/
theorem step_of_regWrite {s s' : State} {off : Offset} {v : Word} {r : Reg} (h : HostWrites s off v s')
    (hreg : accessedReg 4 off = some r) (hcmd : r ≠ .cmd) :
    step s = .next (s'.setBlk (writeReg r v s.blk)) := by
  rw [step_of_host h, ← HostNext.blk_eq h]
  show portWrite 4 off v s' = _
  unfold portWrite
  rw [hreg]
  cases r with
  | cmd => exact (hcmd rfl).elim
  | _ => rfl

/-- Settles O13, bit by bit of `STATUS`. -/
theorem statusWriteClearsTheBitsWrittenOne : Obligations.StatusWriteClearsTheBitsWrittenOne := by
  intro s s' v h
  refine ⟨_, step_of_regWrite (r := .status) h (by decide) (by decide), rfl, fun k => ?_, rfl⟩
  show (s.blk.clearStatus v).statusWord.getLsbD k = (s.blk.statusWord.getLsbD k && _)
  rw [Block.statusWord_getLsbD, Block.statusWord_getLsbD]
  rcases k with _ | _ | _ | _ | _ | _ | k <;> simp [Block.clearStatus, Block.busy]

/-! ## The staged payload -/

/-- An element of the payload operand is its register, sign-extended (R70). -/
theorem Block.plOp_getElem? (b : Block) {k : Nat} (hk : k < 256) (hlen : k < b.plLen.toNat) :
    b.plOp[k]? = some (sext32 b.plData[k]) := by
  simp [Block.plOp, hlen, hk]

/-- Elements at and above `PL_LEN` do not reach the payload operand (R30). -/
theorem Block.plOp_eq_of_staged_eq {b c : Block} (hlen : c.plLen = b.plLen)
    (hdata : ∀ (k : Nat) (hk : k < 256), k < b.plLen.toNat → c.plData[k] = b.plData[k]) : c.plOp = b.plOp := by
  refine List.ext_getElem? fun k => ?_
  by_cases hk : k < min b.plLen.toNat Config.plCap
  · obtain ⟨hstaged, hcap⟩ := lt_min_iff.1 hk
    rw [b.plOp_getElem? hcap hstaged, c.plOp_getElem? hcap (by rw [hlen]; exact hstaged), hdata k hcap hstaged]
  · have hout := Nat.le_of_not_lt hk
    rw [← b.plOp_length] at hout
    rw [List.getElem?_eq_none hout, List.getElem?_eq_none (by rwa [c.plOp_length, hlen, ← b.plOp_length])]

/-- Settles O14: two writes of the map, and the operand as the array's first elements. -/
theorem payloadOperandIsTheStagedPrefix : Obligations.PayloadOperandIsTheStagedPrefix := by
  refine ⟨fun s s' v h => ?_, fun s s' v i hi h => ?_, fun b hlen => ⟨?_, fun k hk => b.plOp_getElem? hk⟩,
    fun b c => Block.plOp_eq_of_staged_eq⟩
  · exact step_of_regWrite (r := .plLen) h (by decide) (by decide)
  · have hreg : accessedReg 4 (BitVec.ofNat 14 (0x1000 + 4 * i)) = some (.plData i) := by
      rw [accessedReg_four (by simp), regAt_plData hi]
    refine ⟨_, step_of_regWrite h hreg (by simp), ?_, fun j hj hne => ?_⟩
    · exact Vector.getElem_setIfInBounds_self hi
    · exact Vector.getElem_setIfInBounds_ne hj hne.symm
  · rw [Block.plOp_length]; exact min_eq_left hlen

/-! ## Reset and the environment -/

/-- The turn is taken from the environment, not from the block. -/
theorem TurnNext.blk_eq {s s' : State} {turn : Turn} (h : TurnNext s turn s') : s'.blk = s.blk := by rw [h.rest]; rfl

/-- Settles O48, by evaluation, with `PL_DATA` element by element. -/
theorem resetLeavesTheValuesOfTheTable : Obligations.ResetLeavesTheValuesOfTheTable := by
  refine ⟨rfl, rfl, rfl, rfl, rfl, rfl, rfl, rfl, rfl, rfl, fun i h => ?_, by decide, rfl, rfl, by decide⟩
  exact Vector.getElem_replicate h

/-- While reset is asserted a turn of the host or the block passes without change (R18). -/
theorem runTurn_of_resetAsserted {s : State} {turn : Turn} (hturn : turn = .host ∨ turn = .block)
    (hr : s.env.resetAsserted = true) : runTurn turn s = .next s := by
  obtain rfl | rfl := hturn
  · exact if_pos hr
  · exact if_pos (.inl hr)

/-- Settles O49: each clause is the turn of its agent. -/
theorem resetOverridesEverythingButTheTransport : Obligations.ResetOverridesEverythingButTheTransport := by
  refine ⟨fun s s' h => step_of_turn h, fun s s' turn h hturn hr => ?_, fun s s' h => step_of_turn h⟩
  rw [step_of_turn h]
  exact runTurn_of_resetAsserted hturn (by rw [h.rest]; exact hr)

/-- Settles O51, move by move. -/
theorem environmentMovesLeaveTheBlock : Obligations.EnvironmentMovesLeaveTheBlock := by
  intro s s' m h hassert hinside
  have hqueue : s'.env.rxQueue = s.env.rxQueue := by rw [h.rest]; rfl
  rw [step_of_turn h, ← h.blk_eq, ← hqueue]
  cases m with
  | clock n => exact ⟨_, rfl, rfl, fun _ h => by cases h; rfl, fun _ h => by cases h⟩
  | receive bs => exact ⟨_, rfl, rfl, fun _ h => by (cases h), fun _ h => by cases h; rfl⟩
  | report | reply | releaseReset => exact ⟨_, rfl, rfl, fun _ h => by (cases h), fun _ h => by cases h⟩
  | assertReset => exact (hassert rfl).elim
  | resetInTransaction => exact (hinside rfl).elim

end Sys2Proof.Machine
end

section
/-! PROOFS. The register map is a bijection between the well-formed registers and the aligned offsets that are not
reserved (R47, R48). -/

namespace Sys2Proof.Machine

theorem regOffset_aligned (r : Reg) : (regOffset r).toNat % 4 = 0 := by
  cases r <;> simp [regOffset, regOffsetNat]

theorem regAt_regOffset {r : Reg} (h : r.wellFormed = true) : regAt (regOffset r) = some r := by
  cases r with
  | plData i => exact regAt_plData (of_decide_eq_true h)
  | resBuf i => exact regAt_resBuf (of_decide_eq_true h)
  | _ => rfl

theorem regAt_reserved {off : Offset} (h : ReservedOffset off) : regAt off = none := by
  simp only [ReservedOffset, Config.plCap, Config.resCap] at h
  rw [regAt_window (by omega), windowReg, if_neg (by simp only [Config.plCap]; omega),
    if_neg (by simp only [Config.resCap]; omega)]

/-- The aligned offsets below the reserved range are those of the registers without an index (R47). -/
theorem exists_regOffset_of_lt : ∀ k < 15, ∃ r ∈ regAt (BitVec.ofNat 14 (4 * k)),
    r.wellFormed = true ∧ regOffset r = BitVec.ofNat 14 (4 * k) := by
  decide

/-- An aligned offset that is not reserved is that of a control register or of an array element (R47, R48). -/
theorem reserved_or_exists_regOffset {off : Offset} (h4 : off.toNat % 4 = 0) :
    ReservedOffset off ∨ ∃ r : Reg, r.wellFormed = true ∧ regOffset r = off := by
  have heq (n : Nat) (hn : n = off.toNat) : BitVec.ofNat 14 n = off := by simp [hn]
  simp only [ReservedOffset, Config.plCap, Config.resCap]
  by_cases hctl : off.toNat < 0x3C
  · obtain ⟨r, -, hwf, hoff⟩ := exists_regOffset_of_lt (off.toNat / 4) (by omega)
    exact .inr ⟨r, hwf, hoff.trans (heq _ (by omega))⟩
  by_cases hpl : 0x1000 ≤ off.toNat ∧ off.toNat < 0x1000 + 4 * 256
  · exact .inr ⟨.plData ((off.toNat - 0x1000) / 4), decide_eq_true (show _ < 256 by omega),
      heq _ (show 0x1000 + 4 * _ = _ by omega)⟩
  by_cases hres : 0x2000 ≤ off.toNat ∧ off.toNat < 0x2000 + 4 * 1024
  · exact .inr ⟨.resBuf ((off.toNat - 0x2000) / 4), decide_eq_true (show _ < 1024 by omega),
      heq _ (show 0x2000 + 4 * _ = _ by omega)⟩
  · omega

/-- Settles O15: an aligned offset is reserved, or the offset of a register, at which the map finds that register. -/
theorem registerMapIsOneToOne : Obligations.RegisterMapIsOneToOne := by
  refine ⟨fun r hwf => ⟨regAt_regOffset hwf, regOffset_aligned r⟩, fun off h4 => ?_⟩
  obtain hres | ⟨r, hwf, rfl⟩ := reserved_or_exists_regOffset h4
  · rw [regAt_reserved hres]
    exact ⟨fun _ h => (by cases h), fun _ => hres, fun _ => rfl⟩
  · have hsome := regAt_regOffset hwf
    refine ⟨fun r' h => ?_, fun hnone => ?_, regAt_reserved⟩
    · cases hsome.symm.trans h
      exact ⟨hwf, rfl⟩
    · cases hsome.symm.trans hnone

end Sys2Proof.Machine
end

section
/-! PROOFS. What the port does at each offset: reads (R49), writes (R50) and bad accesses (R52). -/

namespace Sys2Proof.Machine

/-! ## The register an access reaches -/

theorem accessedReg_regOffset {r : Reg} (h : r.wellFormed = true) : accessedReg 4 (regOffset r) = some r := by
  rw [accessedReg_four (regOffset_aligned r), regAt_regOffset h]

/-- An access of another size, of a misaligned or of a reserved offset reaches no register (R45, R52). -/
theorem accessedReg_eq_none {size : Nat} {off : Offset}
    (h : size ≠ 4 ∨ off.toNat % 4 ≠ 0 ∨ ReservedOffset off) : accessedReg size off = none := by
  unfold accessedReg
  split
  next hwf =>
    obtain ⟨hsize, h4⟩ := (wellFormedAccess_iff _ _).1 hwf
    exact regAt_reserved ((h.resolve_left (not_not_intro hsize)).resolve_left (not_not_intro h4))
  next => rfl

/-! ## Reads -/

theorem portRead_regOffset {r : Reg} (h : r.wellFormed = true) (b : Block) :
    portRead 4 (regOffset r) b = (readReg r b, b) := by
  unfold portRead; rw [accessedReg_regOffset h]

/-- A bad read returns 0 and sets `BUSERR` (R52). -/
theorem portRead_bad {size : Nat} {off : Offset} (h : size ≠ 4 ∨ off.toNat % 4 ≠ 0 ∨ ReservedOffset off) (b : Block) :
    portRead size off b = (0#32, b.setBusErr true) := by
  unfold portRead; rw [accessedReg_eq_none h]; rfl

/-- `STATUS` as a number: its flags at their places (R31). -/
theorem Block.statusWord_toNat (b : Block) :
    b.statusWord.toNat = b.busy.toNat + 2 * b.tokHeld.toNat + 4 * b.fatal.toNat + 8 * b.inOvf.toNat +
      16 * b.busErr.toNat + 32 * b.cmdErr.toNat := by
  unfold Block.statusWord
  simp only [append_toNat, bit_toNat, BitVec.toNat_ofNat]
  omega

theorem Block.busy_toNat (b : Block) : b.busy.toNat = if b.fsm ≠ .idle then 1 else 0 := by
  unfold Block.busy; split <;> simp [*]

theorem zext32_eq_ofNat (x : Byte) : zext32 x = BitVec.ofNat 32 x.toNat := (BitVec.ofNat_toNat 32 x).symm

theorem Block.dlLo_eq_ofNat (b : Block) : b.dlLo = BitVec.ofNat 32 (b.tokDl.toNat % 2 ^ 32) := by
  apply BitVec.eq_of_toNat_eq; simp [Block.dlLo]

theorem Block.dlHi_eq_ofNat (b : Block) : b.dlHi = BitVec.ofNat 32 (b.tokDl.toNat / 2 ^ 32) := by
  apply BitVec.eq_of_toNat_eq; simp [Block.dlHi, Nat.shiftRight_eq_div_pow]

/-- Settles O10: an offset of the map reads its register, and a reserved one is a bad read. -/
theorem readsReturnTheMappedValue : Obligations.ReadsReturnTheMappedValue := by
  intro b
  have hread {r : Reg} {v : Word} (hwf : r.wellFormed = true) (hv : readReg r b = v) :
      portRead 4 (regOffset r) b = (v, b) := hv ▸ portRead_regOffset hwf b
  have hstatus := hread (r := .status) rfl rfl
  have hresStat := hread (r := .resStat) rfl rfl
  refine ⟨hread (r := .cmd) rfl rfl, congrArg Prod.snd hstatus, ?_, hread (r := .argId) rfl rfl,
    hread (r := .argWin) rfl rfl, hread (r := .plLen) rfl rfl, congrArg Prod.snd hresStat, ?_,
    hread (r := .resId) rfl (zext32_eq_ofNat _), hread (r := .resLen) rfl rfl, hread (r := .tokDlLo) rfl b.dlLo_eq_ofNat,
    hread (r := .tokDlHi) rfl b.dlHi_eq_ofNat, hread (r := .inLen) rfl rfl, hread (r := .outLen) rfl rfl,
    hread (r := .capPl) rfl rfl, hread (r := .capIn) rfl rfl, hread (r := .capRes) rfl rfl, fun i hi => ?_,
    fun i hlen hi => ?_, fun i hlen hi => ?_, fun off _ hoff => portRead_bad (.inr (.inr hoff)) b⟩
  · rw [← b.busy_toNat]
    exact (congrArg (·.1.toNat) hstatus).trans b.statusWord_toNat
  · exact (congrArg (·.1.toNat) hresStat).trans b.res.statWord_toNat
  · exact hread (r := .plData i) (decide_eq_true hi) (by simp [readReg, hi])
  · exact hread (r := .resBuf i) (decide_eq_true hi) (by simp [readReg, Result.bufWord, hlen, zext32_eq_ofNat])
  · exact hread (r := .resBuf i) (decide_eq_true hi) (by simp [readReg, Result.bufWord, hlen])

/-! ## Writes -/

/-- A write that reaches a register other than `CMD` is the map's write (R50). -/
theorem portWrite_of_accessedReg {size : Nat} {off : Offset} {r : Reg} (hreg : accessedReg size off = some r)
    (hcmd : r ≠ .cmd) (v : Word) (s : State) : portWrite size off v s = .next (s.setBlk (writeReg r v s.blk)) := by
  unfold portWrite
  rw [hreg]
  cases r with
  | cmd => exact (hcmd rfl).elim
  | _ => rfl

/-- A bad write sets `BUSERR` and starts no command (R52). -/
theorem portWrite_bad {size : Nat} {off : Offset}
    (h : size ≠ 4 ∨ off.toNat % 4 ≠ 0 ∨ ReservedOffset off ∨ ReadOnlyOffset off) (v : Word) (s : State) :
    portWrite size off v s = .next (s.setBlk (s.blk.setBusErr true)) := by
  by_cases hnone : size ≠ 4 ∨ off.toNat % 4 ≠ 0 ∨ ReservedOffset off
  · unfold portWrite; rw [accessedReg_eq_none hnone]; rfl
  · simp only [not_or, not_not] at hnone
    obtain ⟨rfl, h4, hres⟩ := hnone
    have hro : ReadOnlyOffset off := by simpa [h4, hres] using h
    obtain ⟨r, hreg, hcmd, hwrite⟩ := regAt_readOnly h4 hro
    rw [portWrite_of_accessedReg ((accessedReg_four h4).trans hreg) hcmd, hwrite]

/-- Settles O11: an offset of the map writes its register, and a read-only or reserved one is a bad write. -/
theorem writesDoWhatTheMapSays : Obligations.WritesDoWhatTheMapSays := by
  intro s v
  have hwrite {r : Reg} {c : Block} (hwf : r.wellFormed = true) (hcmd : r ≠ .cmd) (hc : writeReg r v s.blk = c) :
      portWrite 4 (regOffset r) v s = .next (s.setBlk c) :=
    hc ▸ portWrite_of_accessedReg (accessedReg_regOffset hwf) hcmd v s
  refine ⟨rfl, hwrite (r := .status) rfl (by decide) rfl, hwrite (r := .argId) rfl (by decide) rfl,
    hwrite (r := .argWin) rfl (by decide) rfl, fun hv => hwrite (r := .plLen) rfl (by decide) (if_pos hv),
    fun hv => hwrite (r := .plLen) rfl (by decide) (if_neg (Nat.not_le_of_lt hv)), fun i hi => ?_,
    fun off _ hoff => portWrite_bad (.inr (.inr hoff.symm)) v s⟩
  exact ⟨s.blk.plData.setIfInBounds i v, hwrite (r := .plData i) (decide_eq_true hi) (by simp) rfl,
    Vector.getElem_setIfInBounds_self hi, fun j hj hne => Vector.getElem_setIfInBounds_ne hj hne.symm⟩

/-! ## Bad accesses in a step -/

/-- Bit 4 of `STATUS` is `BUSERR` (R31). -/
theorem readReg_status_bit4 (b : Block) : (readReg .status b).getLsbD 4 = b.busErr := b.statusWord_getLsbD 4

/-- Settles O12: the host's bad reads and writes through the port, and the bits a `STATUS` write leaves. -/
theorem badAccessesOnlySetBusErr : Obligations.BadAccessesOnlySetBusErr := by
  obtain ⟨hread, hwrite⟩ := hostTransactionIsServedInOneStep
  refine ⟨fun s s' size off h hbad => ?_, fun s s' size off v h hbad => ?_, fun s s' v h => ?_, fun s s' v h hv => ?_⟩
  · rw [hread s s' size off h, portRead_bad hbad]
  · rw [hwrite s s' size off v h, portWrite_bad hbad, h.blk_eq]
  · obtain ⟨t, hstep, -, hbits, -⟩ := statusWriteClearsTheBitsWrittenOne s s' v h
    refine ⟨t, hstep, fun hclear => ?_, fun k hk => ?_⟩
    · have hbusErr := hbits 4
      rw [readReg_status_bit4, readReg_status_bit4] at hbusErr
      rw [hbusErr, hclear, Bool.false_and]
    · have hout : ¬(3 ≤ k ∧ k ≤ 5) := by omega
      simpa [hout] using hbits k
  · rw [payloadOperandIsTheStagedPrefix.1 s s' v h, if_neg (Nat.not_le_of_lt hv)]

end Sys2Proof.Machine
end

section
/-! PROOFS. The operand registers do not reach the listen loop (R53, R59): each part of an iteration commutes with
replacing them. -/

namespace Sys2Proof.Machine

section
variable (aid awin n : Word) (d : Vector Word Config.plCap)

/-- The machine with other operand registers. -/
def State.withOperands (s : State) : State := s.setBlk (s.blk.withOperands aid awin n d)

/-- An outcome with other operand registers in its next state. -/
def outcomeWithOperands : Host.Outcome State Fault Refusal → Host.Outcome State Fault Refusal
  | .next t => .next (t.withOperands aid awin n d)
  | .fault f => .fault f
  | .refused r => .refused r

theorem Block.withOperands_inBuf (b : Block) : (b.withOperands aid awin n d).inBuf = b.inBuf := rfl
theorem Block.withOperands_fsm (b : Block) : (b.withOperands aid awin n d).fsm = b.fsm := rfl
theorem Block.withOperands_tokHeld (b : Block) : (b.withOperands aid awin n d).tokHeld = b.tokHeld := rfl

theorem Block.refreshFn_withOperands (b : Block) (t : Timestamp) :
    (b.withOperands aid awin n d).refreshFn t = (b.refreshFn t).withOperands aid awin n d := by
  unfold Block.refreshFn
  show (if b.tokHeld = false ∧ b.tokDl.toNat < t.toNat then _ else _) = _
  split <;> rfl

theorem Block.listenMessageComplete_withOperands (b : Block) :
    (b.withOperands aid awin n d).listenMessageComplete = b.listenMessageComplete.withOperands aid awin n d := by
  unfold Block.listenMessageComplete
  rw [Block.withOperands_inBuf]
  cases scanFn b.inBuf <;> rfl

theorem Block.listenComplete_withOperands (b : Block) :
    (b.withOperands aid awin n d).listenComplete = b.listenComplete.withOperands aid awin n d := by
  unfold Block.listenComplete
  rw [Block.withOperands_fsm, Block.listenMessageComplete_withOperands]
  cases b.fsm <;> rfl

theorem Block.drain_withOperands (b : Block) (x : Byte) :
    (b.withOperands aid awin n d).drain x = (b.drain x).withOperands aid awin n d := by
  unfold Block.drain
  rw [Block.withOperands_inBuf]
  obtain ⟨buf, dropped⟩ := pushInbound Config.inCap b.inBuf x
  cases dropped <;> rfl

theorem listenIteration_withOperands (s : State) :
    listenIteration (s.withOperands aid awin n d) = outcomeWithOperands aid awin n d (listenIteration s) := by
  unfold listenIteration
  simp only [State.withOperands, State.setBlk_blk, State.setBlk_env, Block.refreshFn_withOperands,
    Block.withOperands_tokHeld, Block.listenComplete_withOperands, Block.drain_withOperands]
  split
  · rfl
  · split
    · cases s.env.rxRead <;> rfl
    · rfl

theorem blockTurn_withOperands (s : State) :
    blockTurn (s.withOperands aid awin n d) = outcomeWithOperands aid awin n d (blockTurn s) := by
  unfold blockTurn
  show (if s.env.resetAsserted = true ∨ s.blk.fsm = .idle then _ else _) = _
  split
  · rfl
  · exact listenIteration_withOperands aid awin n d s

end

/-- Settles O16: the block's turn commutes with replacing the operand registers. -/
theorem operandWritesDoNotReachARunningListen : Obligations.OperandWritesDoNotReachARunningListen := by
  intro s aid awin n d
  have hturn := blockTurn_withOperands aid awin n d s
  constructor
  · intro t h; rw [h] at hturn; exact hturn
  · intro r h; rw [h] at hturn; exact hturn

end Sys2Proof.Machine
end

section
/-! PROOFS. The transport's two directions (R61), and a step whose host writes a command (R46, R107). -/

namespace Sys2Proof.Machine

/-! ## Commands write the transport -/

/-- The environment records at most one `TxWrite` more, last, with the transport's answer (R19). -/
def Env.RecordsAtMostOne (e e' : Env) : Prop :=
  e'.txLog = e.txLog ∨ ∃ r, e'.txLog = e.txLog ++ [r] ∧ r.ok = e.txReply.ok

theorem transmitFn_recordsAtMostOne {d : Int} {now : Timestamp} {s s' : State} {out : SendOut}
    (h : transmitFn d now s = some (out, s')) : s.env.RecordsAtMostOne s'.env := by
  obtain ⟨-, h'⟩ | ⟨-, -, h'⟩ | ⟨c, -, -, -, h'⟩ | ⟨-, -, -, h'⟩ := transmitFn_cases d now s <;>
    rw [h'] at h <;> cases h
  · exact .inl rfl
  · exact .inr ⟨_, rfl, rfl⟩
  · exact .inr ⟨_, rfl, rfl⟩

theorem sendAttempt_recordsAtMostOne {i : Instr} {val : Verdict} {id : Byte} {d : Int} {now : Timestamp} {s t : State}
    (h : sendAttempt i val id d now s = .next t) : s.env.RecordsAtMostOne t.env := by
  obtain ⟨out, s', htx, rfl⟩ := sendAttempt_inversion h
  exact transmitFn_recordsAtMostOne (s' := s') htx

/-- A command leaves the environment, or is a send attempt from the same environment (R93, R95). -/
theorem exec_env_eq_or_sendAttempt {i : Instr} {s t : State} (h : exec i s = .next t) :
    t.env = s.env ∨ ∃ val id d now b, sendAttempt i val id d now (s.setBlk b) = .next t := by
  cases i with
  | release =>
    replace h : execRelease s = .next t := h
    unfold execRelease at h
    split at h <;> cases h; exact .inl rfl
  | sendMessage =>
    replace h : execSendMessage s = .next t := h
    unfold execSendMessage at h
    split at h
    · exact .inr ⟨_, _, _, _, _, h⟩
    · exact .inr ⟨_, _, _, _, s.blk, h⟩
  | transmit => exact .inr ⟨_, _, _, _, s.blk, h⟩
  | getMessage =>
    replace h : execGetMessage s = .next t := h
    unfold execGetMessage at h
    split at h <;> cases h <;> exact .inl rfl
  | encode | scan | refresh | newMessage | listen | listenMessage => cases h; exact .inl rfl

theorem exec_recordsAtMostOne {i : Instr} {s t : State} (h : exec i s = .next t) : s.env.RecordsAtMostOne t.env := by
  obtain henv | ⟨val, id, d, now, b, hsend⟩ := exec_env_eq_or_sendAttempt h
  · exact .inl (by rw [henv])
  · exact sendAttempt_recordsAtMostOne (s := s.setBlk b) hsend

/-! ## Iterations read the transport -/

/-- An iteration changes the receive queue of the environment at most (R61, R98). -/
theorem listenIteration_env {s t : State} (h : listenIteration s = .next t) :
    t.env = { s.env with rxQueue := t.env.rxQueue } := by
  obtain ⟨-, -, h'⟩ | ⟨x, e, -, hread, h'⟩ | ⟨-, -, h'⟩ | ⟨-, -, h'⟩ := listenIteration_cases s <;>
    rw [h'] at h <;> cases h
  · rfl
  · exact (Env.rxRead_eq_some.1 hread).2
  · rfl

/-- An iteration leaves the receive queue or takes its oldest byte (R98). -/
theorem IterationDid.rxQueue {b c : Block} {now : Timestamp} {q q' : List Byte} (h : IterationDid b now q c q') :
    q' = q ∨ ∃ x, q = x :: q' := by
  cases h with
  | listened | stored | foundNothing | spun => exact .inl rfl
  | drained x rest hq => exact .inr ⟨x, hq⟩
  | dropped x rest hq => exact .inr ⟨x, hq⟩

/-- Settles O59, by what the step was: only a command writes the transport, and only an iteration reads it. -/
theorem transportDirectionsAreIndependent : Obligations.TransportDirectionsAreIndependent := by
  intro s t hstep
  have grown {q : List Byte} (hq : q = s.env.rxQueue) : ∃ bs, q = s.env.rxQueue ++ bs := ⟨[], by simp [hq]⟩
  cases step_inversion hstep with
  | port _ henv => exact ⟨.inl henv.rxQueue, .inl henv.txLog, .inr (grown henv.rxQueue)⟩
  | env _ hlog hwire hqueue => exact ⟨.inr ⟨hlog, hwire⟩, .inl hlog, .inr hqueue⟩
  | reset _ hlog hwire hqueue => exact ⟨.inl hqueue, .inl hlog, .inr (grown hqueue)⟩
  | command i u _ henv _ _ _ hexec =>
    have hqueue : t.env.rxQueue = s.env.rxQueue := by rw [exec_env hexec]; exact henv.rxQueue
    have hlog := exec_recordsAtMostOne hexec
    rw [Env.RecordsAtMostOne, henv.txLog, henv.txReply] at hlog
    exact ⟨.inl hqueue, hlog, .inr (grown hqueue)⟩
  | iteration u hblk henv hrun _ hiter =>
    have hlog : t.env.txLog = s.env.txLog := by rw [listenIteration_env hiter]; exact henv.txLog
    have hwire : t.env.wire = s.env.wire := by rw [listenIteration_env hiter]; exact henv.wire
    refine ⟨.inr ⟨hlog, hwire⟩, .inl hlog, ?_⟩
    obtain hkept | ⟨x, hread⟩ := (listenIteration_did_of_agrees hblk henv hrun hiter).rxQueue
    · exact .inr (grown hkept)
    · exact .inl ⟨x, hread, hrun⟩

/-! ## The host's commands -/

/-- Behind an open gate a legal word is its command (R107). -/
theorem issue_of_decode {w : Word} {i : Instr} {s : State} (hdecode : decode w = .ok i) (hfatal : s.blk.fatal = false)
    (hidle : s.blk.fsm = .idle) : issue w s = exec i s := by
  have hopen : s.blk.closed = false := by simp [Block.closed, Block.busy, hfatal, hidle]
  unfold issue
  simp only [hopen, hdecode, Bool.false_eq_true, if_false]

/-- Settles O5: both steps are the host's write of the word to `CMD`, with the gate open. -/
theorem stepRunsTheDecodedCommand : Obligations.StepRunsTheDecodedCommand := by
  constructor
  · intro s s' w i h hdecode hfatal hidle
    have hblk := HostNext.blk_eq h
    rw [step_of_cmdWrite h, issue_of_decode hdecode (hblk ▸ hfatal) (hblk ▸ hidle)]
    exact ⟨rfl, hblk⟩
  · intro s w i hdecode hfatal hidle
    have hw : BitVec.ofNat 32 (w.toNat % 2 ^ 32) = w := by rw [Nat.mod_eq_of_lt w.isLt]; simp
    rw [step_withFetchWord, hw]
    exact issue_of_decode hdecode hfatal hidle

end Sys2Proof.Machine
end

section
/-! PROOFS. The command word (R67 to R69): a word decodes to a command exactly when it is that command's word, and the
illegal words are those whose value is not an opcode. -/

namespace Sys2Proof

open Machine

/-! ## Decoding -/

/-- The field laws of Laws/PerInstr.lean, for every command. -/
theorem wordFields (i : Instr) : Laws.WordFields.Statement i := by
  cases i with
  | encode => exact Laws.WordFields.encode
  | scan => exact Laws.WordFields.scan
  | release => exact Laws.WordFields.release
  | refresh => exact Laws.WordFields.refresh
  | sendMessage => exact Laws.WordFields.sendMessage
  | newMessage => exact Laws.WordFields.newMessage
  | transmit => exact Laws.WordFields.transmit
  | listen => exact Laws.WordFields.listen
  | listenMessage => exact Laws.WordFields.listenMessage
  | getMessage => exact Laws.WordFields.getMessage

/-- The opcode table is read the same way in both directions (R68). -/
theorem decodeOp_eq_ok_iff {op : Byte} {i : Instr} : decodeOp op = .ok i ↔ op = opcode i := by
  constructor
  · intro h
    unfold decodeOp at h
    split at h <;> cases h <;> exact BitVec.eq_of_toNat_eq ‹_›
  · rintro rfl
    cases i <;> rfl

/-- A word is its two fields side by side (R67). -/
theorem rsvField_append_opField (w : Word) : (rsvField w ++ opField w : BitVec 32) = w := by
  apply BitVec.eq_of_toNat_eq
  rw [append_toNat]
  simp only [rsvField, opField, BitVec.extractLsb'_toNat, Nat.shiftRight_eq_div_pow]
  omega

/-- The decoder inverts the encoder, and accepts nothing else (R67, R68). -/
theorem decode_eq_ok_iff {w : Word} {i : Instr} : decode w = .ok i ↔ w = encode i := by
  unfold decode
  constructor
  · intro h
    split at h
    next hrsv => rw [← rsvField_append_opField w, hrsv, decodeOp_eq_ok_iff.1 h, encode]
    next => cases h
  · rintro rfl
    obtain ⟨hop, hrsv, -⟩ := wordFields i
    rw [if_pos hrsv, hop, decodeOp_eq_ok_iff]

/-- Settles O2, by `decode_eq_ok_iff` in both directions. -/
theorem decodeAndEncodeAgree : Obligations.DecodeAndEncodeAgree :=
  ⟨fun _ _ => decode_eq_ok_iff.2 rfl, fun _ _ h => (decode_eq_ok_iff.1 h).symm⟩

/-- Settles O1: each word of the table is the encoder's word of its command. -/
theorem wordSelectsCommandExactlyWhenItIsTheOpcode : Obligations.WordSelectsCommandExactlyWhenItIsTheOpcode :=
  fun _ => ⟨decode_eq_ok_iff, decode_eq_ok_iff, decode_eq_ok_iff, decode_eq_ok_iff, decode_eq_ok_iff, decode_eq_ok_iff,
    decode_eq_ok_iff, decode_eq_ok_iff, decode_eq_ok_iff, decode_eq_ok_iff⟩

/-- Settles O4: three words are the encoder's, and the fourth has a reserved bit. -/
theorem sampleWordsDecode : Obligations.SampleWordsDecode :=
  ⟨decode_eq_ok_iff.2 rfl, decode_eq_ok_iff.2 rfl, decode_eq_ok_iff.2 rfl, if_neg (by decide)⟩

/-! ## Illegal words -/

/-- Each value of the opcode table is a command's word (R68). -/
theorem exists_encode_of_lt : ∀ k < 10, ∃ i ∈ (decode (BitVec.ofNat 32 (k + 1))).toOption,
    BitVec.ofNat 32 (k + 1) = encode i := by
  decide

/-- The legal words are the values 1 to 10 (R68, R69). -/
theorem exists_decode_iff {w : Word} : (∃ i, decode w = .ok i) ↔ 1 ≤ w.toNat ∧ w.toNat ≤ 10 := by
  constructor
  · rintro ⟨i, h⟩
    rw [decode_eq_ok_iff.1 h]
    cases i <;> decide
  · rintro ⟨hpos, hle⟩
    obtain ⟨i, -, hword⟩ := exists_encode_of_lt (w.toNat - 1) (by omega)
    rw [Nat.sub_add_cancel hpos, BitVec.ofNat_toNat, BitVec.setWidth_eq] at hword
    exact ⟨i, decode_eq_ok_iff.2 hword⟩

/-- An illegal word is rejected whatever the gate says (R107). -/
theorem issue_of_illegal {w : Word} (h : ∀ i, decode w ≠ .ok i) (s : State) :
    issue w s = .next (s.setBlk s.blk.reject) := by
  obtain ⟨-, h'⟩ | ⟨i, -, -, hdecode, -⟩ := issue_cases w s
  · exact h'
  · exact (h i hdecode).elim

/-- Settles O3: the complement of the legal words, each rejected by the command gate. -/
theorem illegalWordsAreRejected : Obligations.IllegalWordsAreRejected := by
  refine fun w => ⟨?_, fun s s' h hillegal => ?_⟩
  · rw [← not_exists, exists_decode_iff]
    omega
  · rw [step_of_cmdWrite h, issue_of_illegal hillegal, HostNext.blk_eq h]; rfl

end Sys2Proof
end

section
/-! PROOFS. What the lines of a host program expand to (R73, R74), and how `wait` is served. -/

namespace Sys2Proof.Machine

/-! ## Waiting -/

/-- Bit 0 of `STATUS` is `BUSY` (R31). -/
theorem readReg_status_bit0 (b : Block) : (readReg .status b).getLsbD 0 = b.busy := b.statusWord_getLsbD 0

/-- One read of the `wait` loop: it returns `STATUS` and leaves the block, and the loop ends once the block is idle
(R74). -/
theorem serveOp_wait (s : State) :
    serveOp .wait s = .next ⟨s.blk, { s.env with
      hostReads := s.env.hostReads ++ [readReg .status s.blk]
      hostOps := if s.blk.fsm = .idle then s.env.hostOps else .wait :: s.env.hostOps }⟩ := by
  simp only [serveOp, answerRead, portRead_regOffset (r := .status) rfl, readReg_status_bit0, Block.busy]
  by_cases hidle : s.blk.fsm = .idle
  · simp [hidle]
  · simp [hidle, State.setEnv]

/-- Settles O8: the host's turn serves the wait, which is one read of `STATUS`. -/
theorem waitPollsStatusUntilNotBusy : Obligations.WaitPollsStatusUntilNotBusy := by
  intro s s' h
  rw [step_of_host h, serveOp_wait, h.blk_eq, h.hostReads_eq]
  exact ⟨_, rfl, rfl, rfl, rfl⟩

/-! ## Expansion -/

theorem assemble_singleton (l : AsmLine) : assemble [l] = expandLine l := List.append_nil _

/-- A value that a word can hold, unsigned or in two's complement, is written as that word (R73). -/
theorem ofInt_toNat_of_mem_range {v : Int} (hmin : -2 ^ 31 ≤ v) (hmax : v < 2 ^ 32) :
    ((BitVec.ofInt 32 v).toNat : Int) = if v < 0 then v + 2 ^ 32 else v := by
  rw [BitVec.toNat_ofInt]
  split <;> omega

/-- `wr` and `rd` of a register are one transaction at its offset (R73). -/
theorem wr_rd_access_regOffsetNat (r : Reg) : NotationAccesses r (regOffsetNat r) :=
  ⟨fun v hmin hmax => ⟨BitVec.ofInt 32 v, rfl, ofInt_toNat_of_mem_range hmin hmax⟩, rfl⟩

theorem encode_eq_setWidth (i : Instr) : encode i = (opcode i).setWidth 32 := by
  cases i <;> rfl

theorem stageOps_length (k : Nat) (vs : List Int) : (stageOps k vs).length = vs.length := by
  induction vs generalizing k with
  | nil => rfl
  | cons v vs ih => simp [stageOps, ih]

/-- The write that stages an element of `ldpl` (R74). -/
theorem stageOps_getElem (k : Nat) (vs : List Int) {j : Nat} (h : j < vs.length) :
    (stageOps k vs)[j]? = some (wrOp (.plData (k + j)) vs[j]) := by
  induction vs generalizing k j with
  | nil => cases h
  | cons v vs ih =>
    cases j with
    | zero => rfl
    | succ j =>
      have hrest := ih (k + 1) (Nat.lt_of_succ_lt_succ h)
      rw [Nat.add_right_comm] at hrest
      exact hrest

/-- Settles O9: registers by the offset function, and `ldpl` by the writes that stage its elements. -/
theorem hostNotationExpandsToTransactions : Obligations.HostNotationExpandsToTransactions := by
  refine ⟨fun p hp => ?_, fun i _ => wr_rd_access_regOffsetNat (.plData i),
    fun i _ => wr_rd_access_regOffsetNat (.resBuf i), fun i => ?_, rfl, rfl, fun vs _ => ?_⟩
  · have hoff : regOffsetNat p.1 = p.2 := by
      revert p
      decide
    rw [← hoff]
    exact wr_rd_access_regOffsetNat p.1
  · rw [← encode_eq_setWidth]; rfl
  · rw [assemble_singleton, expandLine]
    refine ⟨by simp [stageOps_length], fun k hk => ?_, ?_⟩
    · rw [List.getElem?_append_left (by rwa [stageOps_length]), stageOps_getElem 0 vs hk, Nat.zero_add]
      rfl
    · rw [List.getElem?_append_right (by rw [stageOps_length]), stageOps_length, Nat.sub_self]
      rfl

end Sys2Proof.Machine
end

section
/-! PROOFS. The layout of a frame (R62, R63, R65): operands that pass, the window field and the lengths. -/

namespace Sys2Proof.Machine

theorem inRange_iff {hi v : Int} : inRange hi v = true ↔ 0 ≤ v ∧ v ≤ hi := by
  simp [inRange]

/-- Operands pass exactly when each is in its range (R75). -/
theorem validate_eq_pass_iff {id win : Int} {pl : List Int} :
    validate id win pl = .pass ↔
      (0 ≤ id ∧ id ≤ 255) ∧ (0 ≤ win ∧ win ≤ 65535) ∧ ∀ v ∈ pl, 0 ≤ v ∧ v ≤ 255 := by
  simp only [← inRange_iff, ← List.all_eq_true]
  unfold validate
  cases inRange 255 id
  · simp
  cases inRange 65535 win
  · simp
  cases pl.all (inRange 255) <;> simp

/-- A window other than 0 stands right after the id, most significant byte first (R63, R64). -/
theorem frame_window_getElem? (id : Int) {win : Int} (pl : List Int) (hwin : win ≠ 0) :
    (frame id win pl)[4]? = some (operandByte (win / 256)) ∧ (frame id win pl)[5]? = some (operandByte (win % 256)) := by
  unfold frame windowField
  rw [if_neg hwin]
  exact ⟨rfl, rfl⟩

/-- The two bytes of a window in range are its value (R64). -/
theorem window_bytes_toNat {win : Int} (h : 0 ≤ win ∧ win ≤ 65535) :
    256 * (operandByte (win / 256)).toNat + (operandByte (win % 256)).toNat = win.toNat := by
  rw [operandByte_toNat (by omega), operandByte_toNat (by omega)]
  omega

/-- Settles O20, by the length of a frame and the place of its window. -/
theorem frameLengthsAreSevenOrNinePlusPayload : Obligations.FrameLengthsAreSevenOrNinePlusPayload := by
  intro id win pl h
  obtain ⟨-, hrange, -⟩ := validate_eq_pass_iff.1 h
  rw [frame_length]
  refine ⟨fun h0 => by rw [if_pos h0], fun h0 => ⟨by rw [if_neg h0], ?_⟩, by split <;> omega, by split <;> omega⟩
  obtain ⟨hhi, hlo⟩ := frame_window_getElem? id pl h0
  exact ⟨_, _, hhi, hlo, window_bytes_toNat hrange⟩

end Sys2Proof.Machine
end

section
/-! PROOFS. The scan of a frame on its own (R78, R81): it starts at once, and ends at the first END run among the bytes
after the id. -/

namespace Sys2Proof.Machine

/-! ## Windows -/

/-- A window that lies in the first part of a sequence does not see the rest. -/
theorem window3_append {s : List Byte} {i : Nat} (h : i + 3 ≤ s.length) (later : List Byte) :
    window3 (s ++ later) i = window3 s i := by
  unfold window3
  rw [List.drop_append_of_le_length (by omega), List.take_append_of_le_length (by rw [List.length_drop]; omega)]

theorem window3_append_length (s m : List Byte) : window3 (s ++ m) s.length = m.take 3 := by
  unfold window3; rw [List.drop_left]

/-- The bytes of an END run are all `FE` (R62). -/
theorem getElem?_of_window3_eq_endMarker {s : List Byte} {i j : Nat} (h : window3 s i = endMarker) (hij : i ≤ j)
    (hj : j < i + 3) : s[j]? = some 0xFE#8 := by
  have hbyte := congrArg (·[j - i]?) h
  simp only [window3, List.getElem?_take_of_lt (show j - i < 3 by omega), List.getElem?_drop,
    Nat.add_sub_of_le hij] at hbyte
  rw [hbyte, show endMarker = List.replicate 3 0xFE#8 from rfl, List.getElem?_replicate_of_lt (by omega)]

/-- Bytes with no END run that do not end with `FE` meet their first END run at the END marker after them (R81). -/
theorem least_endRun_length {q : List Byte} (hrun : ∀ j, window3 q j ≠ endMarker) (hlast : q.getLast? ≠ some 0xFE#8) :
    Least (fun j => window3 (q ++ endMarker) j = endMarker) q.length := by
  refine ⟨window3_append_length q endMarker, fun k hk hw => ?_⟩
  by_cases hin : k + 3 ≤ q.length
  · exact hrun k ((window3_append hin endMarker).symm.trans hw)
  · have hbyte := getElem?_of_window3_eq_endMarker hw (j := q.length - 1) (by omega) (by omega)
    rw [List.getElem?_append_left (by omega), ← List.getLast?_eq_getElem?] at hbyte
    exact hlast hbyte

/-! ## Scans -/

/-- A scan of bytes that begin with START looks for END in the bytes after it (R78). -/
theorem scanFn_startMarker_append (body : List Byte) : scanFn (startMarker ++ body) = scanBody body := by
  have hstart : startIndex (startMarker ++ body) = some 0 :=
    startIndex_eq_some.2 ⟨⟨by simp [startMarker], rfl⟩, fun k hk => absurd hk (Nat.not_lt_zero k)⟩
  unfold scanFn
  rw [hstart]
  rfl

/-- With the id in front, a count of `END_MIN` or more ends at END where an END run stands in the bytes after the id
(R78). -/
theorem endAt_cons_iff {id : Byte} {rest : List Byte} {m : Nat} :
    EndAt (id :: rest) (m + 4) ↔ window3 rest m = endMarker := by
  refine ⟨fun ⟨_, _, h⟩ => h, fun h => ⟨Nat.le_add_left 4 m, ?_, h⟩⟩
  have hlt := window3_lt rfl h
  rw [List.length_cons]
  omega

/-- The first END run after the id ends the payload (R78). -/
theorem scanBody_of_least_endRun {id : Byte} {rest : List Byte} {m : Nat}
    (h : Least (fun j => window3 rest j = endMarker) m) : scanBody (id :: rest) = .frame id (rest.take m) := by
  have hend : Least (EndAt (id :: rest)) (m + 4) := by
    refine ⟨endAt_cons_iff.2 h.1, fun n hn hat => ?_⟩
    obtain ⟨k, rfl⟩ := Nat.exists_eq_add_of_le' (show 4 ≤ n from hat.1)
    exact h.2 k (by omega) (endAt_cons_iff.1 hat)
  unfold scanBody
  rw [endCount_eq_some.2 hend]
  rfl

/-- A frame scans to its id and the bytes before the first END run (R81). -/
theorem scanFn_frame {id win : Int} {pl : List Int} {m : Nat}
    (h : Least (fun j => window3 (betweenIdAndEnd win pl ++ endMarker) j = endMarker) m) :
    scanFn (frame id win pl) = .frame (operandByte id) ((betweenIdAndEnd win pl).take m) := by
  have hle : m ≤ (betweenIdAndEnd win pl).length := by
    have hlt := window3_lt rfl h.1
    rw [List.length_append, show endMarker.length = 3 from rfl] at hlt
    omega
  rw [frame_eq, scanFn_startMarker_append, scanBody_of_least_endRun h, List.take_append_of_le_length hle]

/-- A frame free of early END runs scans to its id and all the bytes between id and END (R81). -/
theorem scanFn_frame_of_noEndRun {id win : Int} {pl : List Int}
    (hrun : ∀ j, window3 (betweenIdAndEnd win pl) j ≠ endMarker)
    (hlast : (betweenIdAndEnd win pl).getLast? ≠ some 0xFE#8) :
    scanFn (frame id win pl) = .frame (operandByte id) (betweenIdAndEnd win pl) := by
  rw [scanFn_frame (least_endRun_length hrun hlast), List.take_length]

end Sys2Proof.Machine
end

section
/-! PROOFS. A listen loop that holds the token drains a queue that fits and then completes (R98), and what LISTEN_MESSAGE
stores GET_MESSAGE returns (R100, R101). -/

namespace Sys2Proof.Machine

/-! ## The loop with the token held -/

/-- A LISTEN or LISTEN_MESSAGE runs with the token held, reset released and a transport that keeps its contract (R19,
R98). -/
structure State.ListensHolding (s : State) : Prop where
  running : s.blk.fsm ≠ .idle
  held    : s.blk.tokHeld = true
  release : s.env.resetAsserted = false
  honest  : s.env.rxReport = none

theorem Block.refreshFn_of_held {b : Block} (h : b.tokHeld = true) (t : Timestamp) : b.refreshFn t = b := by
  unfold Block.refreshFn
  rw [h]
  exact if_neg (by simp)

theorem State.ListensHolding.rxWaiting {s : State} (h : s.ListensHolding) :
    s.env.rxWaiting = s.env.rxQueue.length := by
  unfold Env.rxWaiting; rw [h.honest]; rfl

/-- With a byte waiting and room for it, an iteration drains it (R98). -/
theorem State.ListensHolding.iteration_drains {s : State} {x : Byte} {rest : List Byte} (h : s.ListensHolding)
    (hqueue : s.env.rxQueue = x :: rest) (hroom : s.blk.inBuf.length < Config.inCap) :
    listenIteration s = .next ⟨s.blk.setInBuf (s.blk.inBuf ++ [x]), { s.env with rxQueue := rest }⟩ := by
  have hwaiting : 0 < s.env.rxWaiting := by rw [h.rxWaiting, hqueue]; exact Nat.succ_pos _
  have hread : s.env.rxRead = some (x, { s.env with rxQueue := rest }) := Env.rxRead_eq_some.2 ⟨hqueue, rfl⟩
  have hdrain : s.blk.drain x = s.blk.setInBuf (s.blk.inBuf ++ [x]) :=
    (s.blk.drain_cases x).elim And.right fun hfull => absurd hroom (Nat.not_lt_of_le hfull.1)
  unfold listenIteration
  simp only [Block.refreshFn_of_held h.held, hread, hdrain, hwaiting, hwaiting.ne', and_false, if_true, if_false]

/-- With nothing waiting, an iteration completes the loop (R98). -/
theorem State.ListensHolding.iteration_completes {s : State} (h : s.ListensHolding) (hqueue : s.env.rxQueue = []) :
    listenIteration s = .next (s.setBlk s.blk.listenComplete) := by
  have hwaiting : s.env.rxWaiting = 0 := by rw [h.rxWaiting, hqueue]; rfl
  unfold listenIteration
  simp only [Block.refreshFn_of_held h.held, h.held, hwaiting, and_self, if_true]

/-- The machine with the turns `ts` left. -/
def State.withTurns (s : State) (ts : List Turn) : State := s.setEnv { s.env with turns := ts }

/-- The schedule is no condition of the loop. -/
theorem State.ListensHolding.withTurns {s : State} (h : s.ListensHolding) (ts : List Turn) :
    (s.withTurns ts).ListensHolding := ⟨h.running, h.held, h.release, h.honest⟩

/-- The block's turn of a running loop is an iteration, with the turn taken. -/
theorem State.ListensHolding.step_eq {s : State} {ts : List Turn} (h : s.ListensHolding)
    (hturns : s.env.turns = .block :: ts) : step s = listenIteration (s.withTurns ts) := by
  have hturn : TurnNext s .block (s.withTurns ts) := ⟨hturns, rfl⟩
  rw [step_of_turn hturn]
  exact if_neg (not_or.2 ⟨by simp [State.withTurns, h.release], h.running⟩)

/-- The machine once its loop has read the bytes `read`, with `rest` waiting and the turns `ts` left. -/
def State.afterReading (s : State) (read rest : List Byte) (ts : List Turn) : State :=
  ⟨s.blk.setInBuf (s.blk.inBuf ++ read), { s.env with rxQueue := rest, turns := ts }⟩

theorem State.afterReading_nil {s : State} {rest : List Byte} {ts : List Turn} (hqueue : s.env.rxQueue = rest)
    (hturns : s.env.turns = ts) : s.afterReading [] rest ts = s := by
  subst hqueue hturns
  unfold State.afterReading
  rw [List.append_nil]
  rfl

theorem State.afterReading_afterReading (s : State) (p q p' q' : List Byte) (us ts : List Turn) :
    (s.afterReading p q us).afterReading p' q' ts = s.afterReading (p ++ p') q' ts := by
  unfold State.afterReading; rw [← List.append_assoc]; rfl

/-- Reading ends no loop. -/
theorem State.ListensHolding.afterReading {s : State} (h : s.ListensHolding) (read rest : List Byte) (ts : List Turn) :
    (s.afterReading read rest ts).ListensHolding := ⟨h.running, h.held, h.release, h.honest⟩

/-- A queue that fits is read in order, one byte a step (R98). -/
theorem runSteps_drain {s : State} {q : List Byte} {ts : List Turn} (h : s.ListensHolding) (hqueue : s.env.rxQueue = q)
    (hfits : s.blk.inBuf.length + q.length ≤ Config.inCap) (hturns : s.env.turns = List.replicate q.length .block ++ ts)
    (k : Nat) : runSteps (q.length + k) s = runSteps k (s.afterReading q [] ts) := by
  induction q generalizing s with
  | nil => rw [State.afterReading_nil (ts := ts) hqueue hturns, List.length_nil, Nat.zero_add]
  | cons x rest ih =>
    rw [List.length_cons] at hfits
    have hroom : s.blk.inBuf.length < Config.inCap := by omega
    have hstep : step s = .next (s.afterReading [x] rest (List.replicate rest.length .block ++ ts)) :=
      (h.step_eq hturns).trans ((h.withTurns _).iteration_drains hqueue hroom)
    have hfits' : (s.blk.inBuf ++ [x]).length + rest.length ≤ Config.inCap := by
      rw [List.length_append, List.length_singleton]; omega
    rw [List.length_cons, Nat.add_right_comm, runSteps_succ _ hstep, ih (h.afterReading _ _ _) rfl hfits' rfl,
      State.afterReading_afterReading, List.singleton_append]

/-- A queue that fits is drained, and the step after the last byte completes the loop (R98). -/
theorem runSteps_drain_completes {s : State} {q : List Byte} {ts : List Turn} (h : s.ListensHolding)
    (hqueue : s.env.rxQueue = q) (hfits : s.blk.inBuf.length + q.length ≤ Config.inCap)
    (hturns : s.env.turns = List.replicate (q.length + 1) .block ++ ts) :
    runSteps (q.length + 1) s =
      .next ((s.afterReading q [] ts).setBlk (s.afterReading q [] ts).blk.listenComplete) := by
  rw [List.replicate_succ', List.append_assoc] at hturns
  have hdrained := h.afterReading q [] ([.block] ++ ts)
  rw [runSteps_drain h hqueue hfits hturns]
  exact runSteps_succ 0 ((hdrained.step_eq rfl).trans ((hdrained.withTurns ts).iteration_completes rfl))

/-! ## The message stored -/

/-- The end of LISTEN_MESSAGE stores the frame its scan finds, and clears `inbuf` (R98, R100). -/
theorem Block.listenComplete_of_frame {b : Block} {id : Byte} {p : List Byte} (hfsm : b.fsm = .listenMsg)
    (hscan : scanFn b.inBuf = .frame id p) :
    b.listenComplete.fsm = .idle ∧ b.listenComplete.inBuf = [] ∧ b.listenComplete.lastId = id ∧
      b.listenComplete.lastPl = p := by
  unfold Block.listenComplete Block.listenMessageComplete
  rw [hfsm, hscan]
  exact ⟨rfl, rfl, rfl, rfl⟩

/-- GET_MESSAGE reports a last message (R101). -/
theorem exec_getMessage_of_lastId_ne {s : State} (h : s.blk.lastId ≠ 0x00#8) :
    ∃ u, exec .getMessage s = .next u ∧ u.blk.ShowsResult 0x000A0001 s.blk.lastId s.blk.lastPl :=
  ⟨_, if_neg h, Block.showsResult_of_res rfl (by simp [Block.result, opcode, Verdict.code, Cause.code])⟩

/-- A GET_MESSAGE after the end of LISTEN_MESSAGE returns the frame that its scan found, unless the id is 0 (R100, R101). -/
theorem exec_getMessage_after_listenComplete {s : State} {id : Byte} {p : List Byte} (hfsm : s.blk.fsm = .listenMsg)
    (hscan : scanFn s.blk.inBuf = .frame id p) (hne : id ≠ 0x00#8) :
    ∃ u, exec .getMessage (s.setBlk s.blk.listenComplete) = .next u ∧ u.blk.ShowsResult 0x000A0001 id p := by
  obtain ⟨-, -, rfl, rfl⟩ := Block.listenComplete_of_frame hfsm hscan
  exact exec_getMessage_of_lastId_ne (s := s.setBlk s.blk.listenComplete) hne

/-- An id in range other than 0 is not the byte that marks an empty last message (R101). -/
theorem operandByte_ne_zero {v : Int} (hpos : 0 < v) (hle : v ≤ 255) : operandByte v ≠ 0x00#8 := by
  intro h
  have hbyte := operandByte_toNat ⟨hpos.le, hle⟩
  rw [h, BitVec.toNat_zero] at hbyte
  omega

/-- Settles O47: the loop drains the frame, its scan finds the id and the payload, and GET_MESSAGE reports them. -/
theorem aFrameSentIsTheMessageReceived : Obligations.AFrameSentIsTheMessageReceived := by
  intro s ts id pl hpass hpos hlen hrun hlast hfsm hheld hempty hreset hhonest hqueue hturns
  obtain ⟨⟨-, hle⟩, -, -⟩ := validate_eq_pass_iff.1 hpass
  have hlistens : s.ListensHolding := ⟨by rw [hfsm]; decide, hheld, hreset, hhonest⟩
  have hfits : s.blk.inBuf.length + (frame id 0 pl).length ≤ 1024 := by
    rw [hempty, frame_length, if_pos rfl, List.length_nil]; omega
  have hscan : scanFn (frame id 0 pl) = .frame (operandByte id) (pl.map operandByte) :=
    scanFn_frame_of_noEndRun (win := 0) hrun hlast
  have hread : (s.afterReading (frame id 0 pl) [] ts).blk.inBuf = frame id 0 pl :=
    congrArg (· ++ frame id 0 pl) hempty
  rw [← hread] at hscan
  replace hfsm : (s.afterReading (frame id 0 pl) [] ts).blk.fsm = .listenMsg := hfsm
  obtain ⟨hidle, hcleared, -, -⟩ := Block.listenComplete_of_frame hfsm hscan
  obtain ⟨u, hexec, hshow⟩ := exec_getMessage_after_listenComplete hfsm hscan (operandByte_ne_zero hpos hle)
  exact ⟨_, u, runSteps_drain_completes hlistens hqueue hfits hturns, hidle, hcleared, rfl, hexec, hshow⟩

end Sys2Proof.Machine
end

section
/-! PROOFS. The closed form of the scanner by its least START and least END (R78), and what follows: a bound on the
payload, and that the bytes after a frame are not examined (R83). -/

namespace Sys2Proof.Machine

/-! ## Least indices -/

/-- Two predicates that agree up to `n` are first met there together. -/
theorem Least.congr {P Q : Nat → Prop} {n : Nat} (h : Least P n) (hiff : ∀ k ≤ n, P k ↔ Q k) : Least Q n :=
  ⟨(hiff n le_rfl).1 h.1, fun k hk hq => h.2 k hk ((hiff k hk.le).2 hq)⟩

theorem exists_least {P : Nat → Prop} {n : Nat} (h : P n) : ∃ m ≤ n, Least P m := by
  classical
  have hex : ∃ k, P k := ⟨n, h⟩
  exact ⟨Nat.find hex, Nat.find_min' hex h, Nat.find_spec hex, fun _ => Nat.find_min hex⟩

/-- A START marker inside the first part of a sequence does not depend on the rest (R78). -/
theorem startAt_append_iff {s : List Byte} {i : Nat} (h : i + 2 < s.length) (later : List Byte) :
    StartAt (s ++ later) i ↔ StartAt s i := by
  unfold StartAt
  rw [window3_append h, List.length_append]
  exact and_congr_left fun _ => ⟨fun _ => h, fun _ => Nat.lt_add_right _ h⟩

/-- An END count inside the first part of a body does not depend on the rest (R78). -/
theorem endAt_append_iff {body : List Byte} {n : Nat} (h : n ≤ body.length) (later : List Byte) :
    EndAt (body ++ later) n ↔ EndAt body n := by
  unfold EndAt
  refine and_congr_right fun hmin => ?_
  have hmin' : 4 ≤ n := hmin
  rw [window3_append (by omega), List.length_append]
  exact and_congr_left fun _ => ⟨fun _ => h, fun _ => Nat.le_add_right_of_le h⟩

/-- A body with an END is not empty (R78). -/
theorem EndAt.ne_nil {body : List Byte} {n : Nat} (h : EndAt body n) : body ≠ [] := by
  obtain ⟨hmin, hlen, -⟩ := h
  rintro rfl
  exact absurd (hmin.trans hlen) (by decide)

/-! ## The closed form -/

/-- A body scans to the frame of its least END (R78). -/
theorem scanBody_of_least_endAt {id : Byte} {rest : List Byte} {n : Nat} (h : Least (EndAt (id :: rest)) n) :
    scanBody (id :: rest) = .frame id (rest.take (n - 4)) := by
  unfold scanBody
  rw [endCount_eq_some.2 h]

/-- A body without an END scans to nothing (R78). -/
theorem scanBody_of_no_endAt {body : List Byte} (h : ∀ n, ¬ EndAt body n) : scanBody body = .incomplete := by
  unfold scanBody
  rw [endCount_eq_none.2 h]

/-- From the least START on, a scan is the scan of the body (R78). -/
theorem scanFn_of_least_startAt {s : List Byte} {i : Nat} (h : Least (StartAt s) i) :
    scanFn s = scanBody (s.drop (i + 3)) := by
  unfold scanFn
  rw [startIndex_eq_some.2 h]

/-- Bytes without a START scan to nothing (R78). -/
theorem scanFn_of_no_startAt {s : List Byte} (h : ∀ i, ¬ StartAt s i) : scanFn s = .incomplete := by
  unfold scanFn
  rw [startIndex_eq_none.2 h]

/-- A scan that finds a frame found the least START and, in the body after it, the least END (R78). -/
theorem exists_least_of_scanFn_eq_frame {s p : List Byte} {id : Byte} (h : scanFn s = .frame id p) :
    ∃ i n rest, Least (StartAt s) i ∧ s.drop (i + 3) = id :: rest ∧ Least (EndAt (id :: rest)) n ∧
      p = rest.take (n - 4) := by
  by_cases hstart : ∃ k, StartAt s k
  · obtain ⟨k, hk⟩ := hstart
    obtain ⟨i, -, hi⟩ := exists_least hk
    rw [scanFn_of_least_startAt hi] at h
    obtain ⟨id', rest, n, hbody, hn, hscan⟩ | ⟨-, hscan⟩ := scanBody_cases (s.drop (i + 3)) <;> rw [hscan] at h <;>
      cases h
    exact ⟨i, n, rest, hi, hbody, hbody ▸ hn, rfl⟩
  · rw [scanFn_of_no_startAt (not_exists.1 hstart)] at h
    cases h

/-- Both markers and the id stand outside the payload (R78). -/
theorem length_of_scanFn_eq_frame {s p : List Byte} {id : Byte} (h : scanFn s = .frame id p) :
    p.length + 7 ≤ s.length := by
  obtain ⟨i, n, rest, -, hbody, ⟨⟨hmin, hlen, -⟩, -⟩, rfl⟩ := exists_least_of_scanFn_eq_frame h
  replace hmin : 4 ≤ n := hmin
  rw [← hbody, List.length_drop] at hlen
  rw [List.length_take]
  omega

/-- Settles O22: the two searches answer the least START and the least END. -/
theorem scanFindsTheFirstStartAndEnd : Obligations.ScanFindsTheFirstStartAndEnd := by
  refine fun s => ⟨fun i n id rest hi hbody hn => ?_, scanFn_of_no_startAt, fun i hi hno => ?_,
    fun _ _ => length_of_scanFn_eq_frame⟩
  · rw [scanFn_of_least_startAt hi, hbody, scanBody_of_least_endAt hn]
  · rw [scanFn_of_least_startAt hi, scanBody_of_no_endAt hno]

/-- The bytes after the least END of a body are not examined (R83). -/
theorem scanBody_append_of_least_endAt {body : List Byte} {n : Nat} (h : Least (EndAt body) n) (later : List Byte) :
    scanBody (body ++ later) = scanBody body := by
  have hlen : n ≤ body.length := h.1.2.1
  have h' : Least (EndAt (body ++ later)) n := h.congr fun k hk => (endAt_append_iff (hk.trans hlen) later).symm
  cases body with
  | nil => exact absurd rfl h.1.ne_nil
  | cons id rest =>
    rw [List.length_cons] at hlen
    rw [List.cons_append] at h' ⊢
    rw [scanBody_of_least_endAt h', scanBody_of_least_endAt h, List.take_append_of_le_length (by omega)]

/-- The bytes after the frame found are not examined (R83). -/
theorem scanFn_append_of_eq_frame {s p : List Byte} {id : Byte} (h : scanFn s = .frame id p) (later : List Byte) :
    scanFn (s ++ later) = .frame id p := by
  obtain ⟨i, n, rest, hi, hbody, hn, -⟩ := exists_least_of_scanFn_eq_frame h
  rw [← hbody] at hn
  have hstart : i + 2 < s.length := hi.1.1
  have hi' : Least (StartAt (s ++ later)) i := hi.congr fun k hk => (startAt_append_iff (by omega) later).symm
  rw [scanFn_of_least_startAt hi', List.drop_append_of_le_length hstart, scanBody_append_of_least_endAt hn,
    ← scanFn_of_least_startAt hi, h]

/-- Settles O26, by the append lemma and the bound on the payload. -/
theorem oneScanReturnsTheFirstFrameOnly : Obligations.OneScanReturnsTheFirstFrameOnly := by
  refine ⟨fun s later id p h => scanFn_append_of_eq_frame h later, fun s hshort => ?_⟩
  cases h : scanFn s with
  | incomplete => rfl
  | frame id p =>
    have := length_of_scanFn_eq_frame h
    omega

end Sys2Proof.Machine
end

section
/-! PROOFS. When a frame on its own scans to all its bytes (R81), and the frame behind a stray `FF` (R82). -/

namespace Sys2Proof.Machine

/-- Behind bytes that end with `FE`, an END run begins before the END marker (R81). -/
theorem window3_append_endMarker_of_getLast? {q : List Byte} (h : q.getLast? = some 0xFE#8) :
    window3 (q ++ endMarker) (q.length - 1) = endMarker := by
  obtain ⟨init, rfl⟩ := List.getLast?_eq_some_iff.1 h
  rw [List.length_append, List.length_singleton, Nat.add_sub_cancel, List.append_assoc, window3_append_length]
  rfl

/-- The first END run after the bytes `q` is the END marker itself exactly when `q` has no END run and does not end with
`FE` (R81). -/
theorem least_endRun_length_iff {q : List Byte} :
    Least (fun j => window3 (q ++ endMarker) j = endMarker) q.length ↔
      (∀ j, window3 q j ≠ endMarker) ∧ q.getLast? ≠ some 0xFE#8 := by
  refine ⟨fun ⟨_, hleast⟩ => ⟨fun j hj => ?_, fun hlast => ?_⟩, fun ⟨hrun, hlast⟩ => least_endRun_length hrun hlast⟩
  · have hlt := window3_lt rfl hj
    exact hleast j (by omega) ((window3_append hlt endMarker).trans hj)
  · have hpos : 0 < q.length := List.length_pos_iff.2 (by rintro rfl; cases hlast)
    exact hleast (q.length - 1) (by omega) (window3_append_endMarker_of_getLast? hlast)

/-- A frame scans to all its bytes between id and END exactly when their first END run is the END marker (R81). -/
theorem scanFn_frame_eq_all_iff (id win : Int) (pl : List Int) :
    scanFn (frame id win pl) = .frame (operandByte id) (betweenIdAndEnd win pl) ↔
      Least (fun j => window3 (betweenIdAndEnd win pl ++ endMarker) j = endMarker) (betweenIdAndEnd win pl).length := by
  obtain ⟨m, hle, hm⟩ := exists_least (P := fun j => window3 (betweenIdAndEnd win pl ++ endMarker) j = endMarker)
    (window3_append_length (betweenIdAndEnd win pl) endMarker)
  constructor
  · intro h
    rw [scanFn_frame hm, Scan.frame.injEq, List.take_eq_self_iff] at h
    rwa [← le_antisymm hle h.2]
  · intro h
    rw [scanFn_frame h, List.take_length]

/-- Settles O25: the scan of a frame, and where the first END run of its bytes stands. -/
theorem frameScansToItsBytesBeforeTheFirstEndRun : Obligations.FrameScansToItsBytesBeforeTheFirstEndRun :=
  fun id win pl _ => ⟨fun _ => scanFn_frame, (scanFn_frame_eq_all_iff id win pl).trans least_endRun_length_iff⟩

/-- A stray `FF` and a frame are a START with `FF` and the id in front of the frame's bytes: free of early END runs from
the id on, they scan to id `FF` and all those bytes (R82). -/
theorem scanFn_cons_frame_of_noEndRun {id win : Int} {pl : List Int}
    (hrun : ∀ j, window3 (operandByte id :: betweenIdAndEnd win pl) j ≠ endMarker)
    (hlast : (operandByte id :: betweenIdAndEnd win pl).getLast? ≠ some 0xFE#8) :
    scanFn (0xFF#8 :: frame id win pl) = .frame 0xFF#8 (operandByte id :: betweenIdAndEnd win pl) := by
  have hshift : 0xFF#8 :: frame id win pl =
      startMarker ++ (0xFF#8 :: ((operandByte id :: betweenIdAndEnd win pl) ++ endMarker)) := by
    rw [frame_eq]; rfl
  rw [hshift, scanFn_startMarker_append, scanBody_of_least_endRun (least_endRun_length hrun hlast), List.take_left]

/-- Settles O27, from the same claim of any operands, validated or not. -/
theorem strayMarkerByteShiftsTheFrame : Obligations.StrayMarkerByteShiftsTheFrame :=
  fun _ _ _ _ => scanFn_cons_frame_of_noEndRun

end Sys2Proof.Machine
end

section
/-! PROOFS. The scanner slides by one byte (R80), and the streaming machine of R79 answers what the closed form of R78
answers. -/

namespace Sys2Proof.Machine

/-! ## Sliding -/

/-- Where no START stands at index 0, the search for it is the search in the bytes after the first (R80). -/
theorem startIndex_cons_of_take_ne {x : Byte} {s : List Byte} (h : (x :: s).take 3 ≠ startMarker) :
    startIndex (x :: s) = (startIndex s).map (· + 1) := by
  unfold startIndex
  rw [List.length_cons, List.range_succ_eq_map, List.find?_cons_of_neg (by simpa [window3] using h), List.find?_map]
  rfl

/-- Where no START stands at index 0, the oldest byte has no part in the scan (R80). -/
theorem scanFn_cons_of_take_ne {x : Byte} {s : List Byte} (h : (x :: s).take 3 ≠ startMarker) :
    scanFn (x :: s) = scanFn s := by
  unfold scanFn
  rw [startIndex_cons_of_take_ne h]
  cases startIndex s <;> rfl

/-- Settles O24, from the search for START, which alone examines the oldest byte. -/
theorem scannerSlidesByOneByte : Obligations.ScannerSlidesByOneByte := fun _ _ => scanFn_cons_of_take_ne

/-! ## The streaming machine -/

/-- Once a frame is found, later bytes are not examined (R79). -/
theorem foldl_streamStep_done (r : Scan) (s : List Byte) : s.foldl streamStep (.done r) = .done r := by
  induction s with
  | nil => rfl
  | cons x s ih => exact ih

/-- The machine's test for END after the bytes `acc` is an END at their count (R78, R79). -/
theorem endAt_length_iff {acc : List Byte} :
    EndAt acc acc.length ↔ Config.endMin ≤ acc.length ∧ acc.drop (acc.length - 3) = endMarker := by
  refine and_congr_right fun _ => ?_
  rw [window3, List.take_of_length_le (by rw [List.length_drop]; omega)]
  exact and_iff_right le_rfl

/-- The frame of a body's least END, as the machine reads it from its accumulated bytes (R78, R79). -/
theorem scanBody_eq_headD_of_least_endAt {body : List Byte} {n : Nat} (h : Least (EndAt body) n) :
    scanBody body = .frame (body.headD 0x00#8) ((body.drop 1).take (n - 4)) := by
  cases body with
  | nil => exact absurd rfl h.1.ne_nil
  | cons id rest => exact scanBody_of_least_endAt h

/-- A byte that completes an END in BODY ends the machine with the scan of the bytes so far (R79). -/
theorem streamStep_body_of_least_endAt {acc : List Byte} {x : Byte}
    (h : Least (EndAt (acc ++ [x])) (acc ++ [x]).length) :
    streamStep (.body acc) x = .done (scanBody (acc ++ [x])) := by
  rw [scanBody_eq_headD_of_least_endAt h]
  exact if_pos (endAt_length_iff.1 h.1)

/-- A byte that completes no END in BODY is kept (R79). -/
theorem streamStep_body_of_not_endAt {acc : List Byte} {x : Byte} (h : ¬ EndAt (acc ++ [x]) (acc ++ [x]).length) :
    streamStep (.body acc) x = .body (acc ++ [x]) := if_neg fun hend => h (endAt_length_iff.2 hend)

/-- In BODY, with no END among the bytes `acc` so far, the machine answers the scan of the whole body (R79). -/
theorem outcome_foldl_body (s acc : List Byte) (hno : ∀ n, ¬ EndAt acc n) :
    (s.foldl streamStep (.body acc)).outcome = scanBody (acc ++ s) := by
  induction s generalizing acc with
  | nil => rw [List.append_nil, scanBody_of_no_endAt hno]; rfl
  | cons x s ih =>
    have hbelow (n : Nat) (hn : n < (acc ++ [x]).length) : ¬ EndAt (acc ++ [x]) n := fun h =>
      hno n ((endAt_append_iff (by rw [List.length_append] at hn; exact Nat.le_of_lt_succ hn) [x]).1 h)
    rw [List.foldl_cons, List.append_cons]
    by_cases hend : EndAt (acc ++ [x]) (acc ++ [x]).length
    · have hleast : Least (EndAt (acc ++ [x])) (acc ++ [x]).length := ⟨hend, hbelow⟩
      rw [streamStep_body_of_least_endAt hleast, foldl_streamStep_done, scanBody_append_of_least_endAt hleast]
      rfl
    · rw [streamStep_body_of_not_endAt hend]
      refine ih (acc ++ [x]) fun n hn => ?_
      obtain rfl | hlt := Nat.eq_or_lt_of_le hn.2.1
      · exact hend hn
      · exact hbelow n hlt hn

/-- In HUNT, with at most two bytes `w` kept, the machine answers the scan of those bytes and the rest (R79). -/
theorem outcome_foldl_hunt (s w : List Byte) (hw : w.length ≤ 2) :
    (s.foldl streamStep (.hunt w)).outcome = scanFn (w ++ s) := by
  induction s generalizing w with
  | nil =>
    rw [List.append_nil, scanFn_of_no_startAt fun i h => absurd h.1 (by omega)]
    rfl
  | cons x s ih =>
    have hlen : (w ++ [x]).length = w.length + 1 := List.length_append
    rw [List.foldl_cons, List.append_cons, streamStep]
    generalize w ++ [x] = w' at hlen ⊢
    by_cases hfull : w'.length = 3
    · by_cases hstart : w' = startMarker
      · rw [if_pos hfull, if_pos hstart, hstart, scanFn_startMarker_append]
        exact outcome_foldl_body s [] fun n h => h.ne_nil rfl
      · rw [if_pos hfull, if_neg hstart, ih _ (by rw [List.length_drop]; omega)]
        cases w' with
        | nil => cases hlen
        | cons y ys =>
          have htake : (y :: (ys ++ s)).take 3 ≠ startMarker := by
            rwa [← List.cons_append, List.take_append_of_le_length hfull.ge, List.take_of_length_le hfull.le]
          exact (scanFn_cons_of_take_ne htake).symm
    · rw [if_neg hfull, ih w' (by omega)]

/-- Settles O23: the machine starts in HUNT with no bytes kept. -/
theorem streamingScannerEqualsTheClosedForm : Obligations.StreamingScannerEqualsTheClosedForm :=
  fun s => outcome_foldl_hunt s [] (Nat.zero_le 2)

end Sys2Proof.Machine
end

section
/-! PROOFS. The encoder's verdict and frame (R75, R76), and what ENCODE and SCAN report (R77, R84). -/

namespace Sys2Proof.Machine

/-! ## Validation and frame construction -/

theorem inRange_eq_false_iff {hi v : Int} : inRange hi v = false ↔ v < 0 ∨ hi < v := by
  rw [← Bool.not_eq_true, inRange_iff]
  omega

/-- Each failing verdict is the first check that fails (R75). -/
theorem validate_eq_failing_iff (id win : Int) (pl : List Int) :
    (validate id win pl = .badId ↔ inRange 255 id = false) ∧
    (validate id win pl = .badWin ↔ inRange 255 id = true ∧ inRange 65535 win = false) ∧
    (validate id win pl = .badPayload ↔
      inRange 255 id = true ∧ inRange 65535 win = true ∧ pl.all (inRange 255) = false) := by
  unfold validate
  cases inRange 255 id
  · simp
  cases inRange 65535 win
  · simp
  cases pl.all (inRange 255) <;> simp

/-- Settles O18, by the bounds of each check. -/
theorem validationReportsTheFirstFailingCheck : Obligations.ValidationReportsTheFirstFailingCheck := by
  refine ⟨rfl, rfl, rfl, rfl, fun id win pl => ?_⟩
  obtain ⟨hid, hwin, hpl⟩ := validate_eq_failing_iff id win pl
  simp only [List.all_eq_false, Bool.not_eq_true] at hpl
  simp only [inRange_iff, inRange_eq_false_iff] at hid hwin hpl
  exact ⟨hid, hwin, hpl, validate_eq_pass_iff⟩

/-- The bytes of a payload in range are its elements (R76). -/
theorem map_operandByte_toNat {pl : List Int} (h : ∀ v ∈ pl, 0 ≤ v ∧ v ≤ 255) :
    (pl.map operandByte).map BitVec.toNat = pl.map Int.toNat := by
  rw [List.map_map]
  exact List.map_congr_left fun v hv => operandByte_toNat (h v hv)

/-- The window field of a window in range is its quotient and remainder by 256, or nothing for 0 (R63, R64). -/
theorem windowField_map_toNat {win : Int} (h : 0 ≤ win ∧ win ≤ 65535) :
    (windowField win).map BitVec.toNat = if win = 0 then [] else [win.toNat / 256, win.toNat % 256] := by
  have hhi : (operandByte (win / 256)).toNat = win.toNat / 256 := by rw [operandByte_toNat (by omega)]; omega
  have hlo : (operandByte (win % 256)).toNat = win.toNat % 256 := by rw [operandByte_toNat (by omega)]; omega
  unfold windowField
  split
  · rfl
  · rw [← hhi, ← hlo]; rfl

/-- Settles O19, field by field. -/
theorem frameHasTheWireLayout : Obligations.FrameHasTheWireLayout := by
  intro id win pl h
  obtain ⟨hid, hwin, hpl⟩ := validate_eq_pass_iff.1 h
  rw [← operandByte_toNat hid, ← windowField_map_toNat hwin, ← map_operandByte_toNat hpl]
  simp only [frame, List.map_append]
  rfl

/-! ## ENCODE -/

theorem Block.encodeResult_of_pass {b : Block} (h : b.verdict = .pass) (i : Instr) :
    b.encodeResult i = b.result i true .pass .none (operandByte b.idOp) b.operandFrame := by
  unfold Block.encodeResult; rw [h]

theorem Block.encodeResult_of_ne_pass {b : Block} (h : b.verdict ≠ .pass) (i : Instr) :
    b.encodeResult i = b.result i false b.verdict .validation 0x00#8 [] := by
  unfold Block.encodeResult
  cases hv : b.verdict
  case pass => exact absurd hv h
  all_goals rfl

/-- The encode step writes the result registers alone (R77). -/
theorem Block.onlyResult_encodeResult (b : Block) (i : Instr) : b.OnlyResult (b.encodeResult i) := by
  obtain ⟨r, hr, -⟩ := b.encodeResult_cases i
  rw [hr]; rfl

/-- What the encode step shows of operands that pass (R77, R92). -/
theorem Block.showsResult_encodeResult_of_pass {b : Block} (h : b.verdict = .pass) (i : Instr) :
    (b.encodeResult i).ShowsResult (1 + 65536 * (opcode i).toNat) (operandByte b.idOp) b.operandFrame := by
  rw [Block.encodeResult_of_pass h]
  exact Block.showsResult_of_res rfl rfl

/-- What the encode step shows of operands that fail: `VALIDATION` and the verdict's code (R77, R92). -/
theorem Block.showsResult_encodeResult_of_ne_pass {b : Block} (h : b.verdict ≠ .pass) (i : Instr) :
    (b.encodeResult i).ShowsResult (16 * b.verdict.code.toNat + 256 + 65536 * (opcode i).toNat) 0x00#8 [] := by
  rw [Block.encodeResult_of_ne_pass h]
  refine Block.showsResult_of_res rfl ?_
  simp [Block.result, Cause.code]

/-- Settles O21, by the encode step's result on either side of the verdict. -/
theorem encodeReportsTheFrameOrTheVerdict : Obligations.EncodeReportsTheFrameOrTheVerdict := by
  refine ⟨decode_eq_ok_iff.2 rfl, fun s => ⟨_, rfl, rfl, s.blk.onlyResult_encodeResult .encode,
    fun hpass => Block.showsResult_encodeResult_of_pass hpass .encode, ?_⟩⟩
  rintro v rfl hne
  have hcode : 0x00010100 + 16 * s.blk.verdict.code.toNat =
      16 * s.blk.verdict.code.toNat + 256 + 65536 * (opcode .encode).toNat := by
    rw [show (opcode .encode).toNat = 1 from rfl]; omega
  exact hcode ▸ Block.showsResult_encodeResult_of_ne_pass hne .encode

/-! ## SCAN -/

/-- The report of a scan writes the result registers alone (R84). -/
theorem Block.onlyResult_scanResult (b : Block) (i : Instr) (r : Scan) : b.OnlyResult (b.scanResult i r) := by
  cases r <;> rfl

/-- What the report of a frame shows (R84, R100). -/
theorem Block.showsResult_scanResult_frame (b : Block) (i : Instr) (id : Byte) (p : List Byte) :
    (b.scanResult i (.frame id p)).ShowsResult (1 + 65536 * (opcode i).toNat) id p :=
  Block.showsResult_of_res rfl rfl

/-- What the report of an incomplete scan shows (R84, R100). -/
theorem Block.showsResult_scanResult_incomplete (b : Block) (i : Instr) :
    (b.scanResult i .incomplete).ShowsResult (256 * 3 + 65536 * (opcode i).toNat) 0x00#8 [] :=
  Block.showsResult_of_res rfl rfl

/-- Settles O28, by the two reports of a scan. -/
theorem scanReportsAndChangesNoBuffer : Obligations.ScanReportsAndChangesNoBuffer := by
  refine ⟨decode_eq_ok_iff.2 rfl, fun s =>
    ⟨s.setBlk (s.blk.scanResult .scan (scanFn s.blk.inBuf)), rfl, rfl, s.blk.onlyResult_scanResult .scan _,
      fun id p hscan => ?_, fun hscan => ?_⟩⟩ <;> rw [hscan]
  · exact s.blk.showsResult_scanResult_frame .scan id p
  · exact s.blk.showsResult_scanResult_incomplete .scan

end Sys2Proof.Machine
end

section
/-! PROOFS. The arbiter (R86 to R91): its two transitions by their conditions, and the commands RELEASE and REFRESH that
run them. -/

namespace Sys2Proof.Machine

/-! ## The transitions -/

theorem Block.releaseFn_of_nonpos {d : Int} (hd : d ≤ 0) (b : Block) (t : Timestamp) : b.releaseFn d t = some b :=
  if_neg (Int.not_lt.2 hd)

/-- A window that fits is granted whatever the token was (R86). -/
theorem Block.exists_releaseFn_of_fits {d : Int} {t : Timestamp} (hd : 0 < d) (hfits : t.toNat + d.toNat < 2 ^ 64)
    (b : Block) : ∃ dl : Timestamp, dl.toNat = t.toNat + d.toNat ∧ b.releaseFn d t = some (b.setToken false dl) := by
  obtain ⟨hnon, -⟩ | ⟨-, -, h⟩ | ⟨-, hover, -⟩ := b.releaseFn_cases d t
  · omega
  · exact ⟨_, deadline_toNat hfits, h⟩
  · omega

/-- A release has no result exactly where its deadline does not fit (R86). -/
theorem Block.releaseFn_eq_none_iff {b : Block} {d : Int} {t : Timestamp} :
    b.releaseFn d t = none ↔ 0 < d ∧ 2 ^ 64 ≤ t.toNat + d.toNat := by
  obtain ⟨hd, h⟩ | ⟨-, hfits, h⟩ | ⟨hd, hover, h⟩ := b.releaseFn_cases d t <;> rw [h]
  · simp [Int.not_lt.2 hd]
  · exact iff_of_false nofun fun ⟨_, hover⟩ => Nat.not_le.2 hfits hover
  · exact iff_of_true rfl ⟨hd, hover⟩

theorem Block.refreshFn_of_heldAt {b : Block} {t : Timestamp} (h : b.HeldAt t) :
    b.refreshFn t = b.setToken true b.tokDl := by
  rw [b.refreshFn_eq_setToken t, (b.refreshFn_tokHeld t).2 h]

theorem Block.refreshFn_of_not_heldAt {b : Block} {t : Timestamp} (h : ¬ b.HeldAt t) : b.refreshFn t = b := by
  obtain ⟨-, hpast, -⟩ | ⟨-, hkept⟩ := b.refreshFn_cases t
  · exact absurd (.inr hpast) h
  · exact hkept

/-- A released token stays released up to its deadline (R87). -/
theorem Block.not_heldAt_of_le {b : Block} {t : Timestamp} (hheld : b.tokHeld = false) (hle : t.toNat ≤ b.tokDl.toNat) :
    ¬ b.HeldAt t := by
  simp [Block.HeldAt, hheld, hle]

/-- Settles O29: the rows are the reset block, the release by its three cases, and the refresh by its two. -/
theorem arbiterFollowsItsTransitionTable : Obligations.ArbiterFollowsItsTransitionTable :=
  ⟨fun _ _ h => ⟨_, step_of_turn h, rfl, rfl⟩,
    fun b _ _ hd hfits => b.exists_releaseFn_of_fits hd hfits,
    fun b _ t hd => b.releaseFn_of_nonpos hd t,
    fun _ t hheld => Block.refreshFn_of_held hheld t,
    fun _ _ _ hpast => Block.refreshFn_of_heldAt (.inr hpast),
    fun _ _ hheld hle => Block.refreshFn_of_not_heldAt (Block.not_heldAt_of_le hheld hle)⟩

/-- Settles O31: the window's block is `RELEASED(t0 + d)`, which a refresh holds exactly after its deadline. -/
theorem windowEndsStrictlyAfterTheDeadline : Obligations.WindowEndsStrictlyAfterTheDeadline := by
  intro b c d t0 t1 hd hrel
  have hfits : t0.toNat + d.toNat < 2 ^ 64 := by
    by_contra hover
    rw [Block.releaseFn_eq_none_iff.2 ⟨hd, Nat.not_lt.1 hover⟩] at hrel
    cases hrel
  obtain ⟨dl, hdl, hgranted⟩ := b.exists_releaseFn_of_fits hd hfits
  rw [hgranted] at hrel
  cases hrel
  rw [Block.refreshFn_tokHeld, Block.setToken_tokHeld, Block.setToken_tokDl, hdl]
  simp

/-! ## RELEASE and REFRESH -/

/-- What a command shows that reports `ok` and nothing else (R34, R90, R91). -/
theorem Block.showsResult_result_ok (b : Block) (i : Instr) (ok : Bool) :
    (b.result i ok .pass .none 0x00#8 []).ShowsResult (ok.toNat + 65536 * (opcode i).toNat) 0x00#8 [] :=
  Block.showsResult_of_res rfl rfl

theorem exec_release_of_releaseFn_eq_some {s : State} {c : Block}
    (h : s.blk.releaseFn s.blk.winOp s.env.now = some c) :
    exec .release s = .next (s.setBlk (c.result .release (decide (0 < s.blk.winOp)) .pass .none 0x00#8 [])) := by
  show execRelease s = _
  rw [execRelease, Block.durOp, h]

theorem exec_release_of_releaseFn_eq_none {s : State} (h : s.blk.releaseFn s.blk.winOp s.env.now = none) :
    exec .release s = .refused .deadlineOverflow := by
  show execRelease s = _
  rw [execRelease, Block.durOp, h]

/-- Settles O32, by the three cases of the release. -/
theorem releaseGrantsTheWindow : Obligations.ReleaseGrantsTheWindow := by
  refine ⟨decode_eq_ok_iff.2 rfl, fun s => ⟨fun hwin => ?_, fun hwin hfits => ?_, fun hwin hover => ?_⟩⟩
  · have hexec := exec_release_of_releaseFn_eq_some (s.blk.releaseFn_of_nonpos hwin s.env.now)
    rw [decide_eq_false (Int.not_lt.2 hwin)] at hexec
    exact ⟨_, hexec, rfl, rfl, s.blk.showsResult_result_ok .release false⟩
  · obtain ⟨dl, hdl, hrel⟩ := s.blk.exists_releaseFn_of_fits hwin hfits
    have hexec := exec_release_of_releaseFn_eq_some hrel
    rw [decide_eq_true hwin] at hexec
    exact ⟨_, hexec, rfl, hdl, rfl, (s.blk.setToken false dl).showsResult_result_ok .release true⟩
  · exact exec_release_of_releaseFn_eq_none (Block.releaseFn_eq_none_iff.2 ⟨hwin, hover⟩)

theorem exec_refresh_of_refreshFn_eq {s : State} {c : Block} (h : s.blk.refreshFn s.env.now = c) :
    exec .refresh s = .next (s.setBlk (c.result .refresh c.tokHeld .pass .none 0x00#8 [])) := by
  subst h; rfl

/-- Settles O33, by whether the token is held after the refresh. -/
theorem refreshReturnsAndReportsTheToken : Obligations.RefreshReturnsAndReportsTheToken := by
  refine ⟨decode_eq_ok_iff.2 rfl, fun s => ⟨fun hheld => ?_, fun hopen => ?_⟩⟩
  · exact ⟨_, exec_refresh_of_refreshFn_eq (Block.refreshFn_of_heldAt hheld), rfl, rfl,
      (s.blk.setToken true s.blk.tokDl).showsResult_result_ok .refresh true⟩
  · have hexec := exec_refresh_of_refreshFn_eq (Block.refreshFn_of_not_heldAt hopen)
    rw [Bool.eq_false_iff.2 fun h => hopen (.inl h)] at hexec
    exact ⟨_, hexec, rfl, rfl, s.blk.showsResult_result_ok .refresh false⟩

end Sys2Proof.Machine
end

section
/-! PROOFS. The refusals: a command is refused only at a release past the last timestamp (R86, R93), and a step only
there, at a transport outside its contract (R19), or at a reset inside a transaction (R120). -/

namespace Sys2Proof.Machine

/-! ## Commands -/

/-- The window of `ARG_WIN`, opened now, would end at or after `2^64` (R86). -/
def State.WindowOverflows (s : State) : Prop :=
  0 < s.blk.winOp ∧ 2 ^ 64 ≤ s.env.now.toNat + s.blk.winOp.toNat

/-- A send attempt comes to its release only with the token held and the transport's ok (R93). -/
theorem transmitFn_eq_none_iff {d : Int} {t : Timestamp} {s : State} :
    transmitFn d t s = none ↔
      s.blk.HeldAt t ∧ s.env.txReply.ok = true ∧ 0 < d ∧ 2 ^ 64 ≤ t.toNat + d.toNat := by
  rw [← Block.releaseFn_eq_none_iff (b := s.blk.refreshFn t), Block.HeldAt, ← Block.refreshFn_tokHeld]
  obtain ⟨hheld, h⟩ | ⟨-, hok, h⟩ | ⟨c, -, -, hrel, h⟩ | ⟨hheld, hok, hrel, h⟩ := transmitFn_cases d t s <;> rw [h]
  · simp [hheld]
  · simp [hok]
  · simp [hrel]
  · exact iff_of_true rfl ⟨hheld, hok, hrel⟩

/-- A send attempt is refused exactly where `transmit_fn` has no result, and otherwise completes (R94). -/
theorem sendAttempt_cases (i : Instr) (val : Verdict) (id : Byte) (d : Int) (t : Timestamp) (s : State) :
    (transmitFn d t s = none ∧ sendAttempt i val id d t s = .refused .deadlineOverflow) ∨
      (transmitFn d t s ≠ none ∧ ∃ u, sendAttempt i val id d t s = .next u) := by
  unfold sendAttempt
  cases transmitFn d t s with
  | none => exact .inl ⟨rfl, rfl⟩
  | some p => exact .inr ⟨nofun, _, rfl⟩

/-- TRANSMIT and SEND_MESSAGE attempt to send some bytes with the window of `ARG_WIN` (R94, R95). -/
theorem exec_eq_sendAttempt {i : Instr} (hi : i = .transmit ∨ i = .sendMessage) (s : State) :
    ∃ val id seq, exec i s =
      sendAttempt i val id s.blk.winOp s.env.now (s.setBlk (s.blk.setOutBuf seq)) := by
  obtain rfl | rfl := hi
  · exact ⟨.pass, 0x00#8, s.blk.outBuf, rfl⟩
  · show ∃ val id seq, execSendMessage s = _
    unfold execSendMessage
    split
    · exact ⟨_, _, _, rfl⟩
    · exact ⟨_, _, s.blk.outBuf, rfl⟩

/-- TRANSMIT and SEND_MESSAGE are refused exactly where they release a window that overflows (R93). -/
theorem exec_send_cases {i : Instr} (hi : i = .transmit ∨ i = .sendMessage) (s : State) :
    ((s.blk.HeldAt s.env.now ∧ s.env.txReply.ok = true ∧ s.WindowOverflows) ∧
        exec i s = .refused .deadlineOverflow) ∨
      (¬ (s.blk.HeldAt s.env.now ∧ s.env.txReply.ok = true ∧ s.WindowOverflows) ∧ ∃ t, exec i s = .next t) := by
  obtain ⟨val, id, seq, hexec⟩ := exec_eq_sendAttempt hi s
  rw [hexec]
  obtain ⟨hnone, h⟩ | ⟨hsome, h⟩ :=
    sendAttempt_cases i val id s.blk.winOp s.env.now (s.setBlk (s.blk.setOutBuf seq))
  · have hall := transmitFn_eq_none_iff.1 hnone
    exact .inl ⟨hall, h⟩
  · exact .inr ⟨fun hall => hsome (transmitFn_eq_none_iff.2 hall), h⟩

theorem exec_send_of_overflow {i : Instr} {s : State} (hi : i = .transmit ∨ i = .sendMessage)
    (hheld : s.blk.HeldAt s.env.now) (hok : s.env.txReply.ok = true) (hover : s.WindowOverflows) :
    exec i s = .refused .deadlineOverflow := by
  obtain ⟨-, h⟩ | ⟨hnot, -⟩ := exec_send_cases hi s
  · exact h
  · exact absurd ⟨hheld, hok, hover⟩ hnot

theorem exec_send_of_not_released {i : Instr} {s : State} (hi : i = .transmit ∨ i = .sendMessage)
    (h : ¬ s.blk.HeldAt s.env.now ∨ s.env.txReply.ok = false) : ∃ t, exec i s = .next t := by
  obtain ⟨⟨hheld, hok, -⟩, -⟩ | ⟨-, hnext⟩ := exec_send_cases hi s
  · simp [hheld, hok] at h
  · exact hnext

/-- Settles O30: the release itself, and the two sends by whether they come to it. -/
theorem deadlineOverflowIsRefused : Obligations.DeadlineOverflowIsRefused := fun _ hwin hover =>
  ⟨Block.releaseFn_eq_none_iff.2 ⟨hwin, hover⟩,
    fun hheld hok => ⟨exec_send_of_overflow (.inl rfl) hheld hok ⟨hwin, hover⟩,
      exec_send_of_overflow (.inr rfl) hheld hok ⟨hwin, hover⟩⟩,
    fun h => ⟨exec_send_of_not_released (.inl rfl) h, exec_send_of_not_released (.inr rfl) h⟩⟩

/-! ## Steps -/

/-- The one refusal of a command (R86). -/
theorem exec_refused {i : Instr} {s : State} {r : Refusal} (h : exec i s = .refused r) :
    r = .deadlineOverflow ∧ s.WindowOverflows := by
  have sends (hi : i = .transmit ∨ i = .sendMessage) : r = .deadlineOverflow ∧ s.WindowOverflows := by
    obtain ⟨⟨-, -, hover⟩, h'⟩ | ⟨-, t, h'⟩ := exec_send_cases hi s <;> rw [h'] at h <;> cases h
    exact ⟨rfl, hover⟩
  cases i with
  | release =>
    cases hrel : s.blk.releaseFn s.blk.winOp s.env.now with
    | none =>
      rw [exec_release_of_releaseFn_eq_none hrel] at h
      cases h
      exact ⟨rfl, Block.releaseFn_eq_none_iff.1 hrel⟩
    | some c => rw [exec_release_of_releaseFn_eq_some hrel] at h; cases h
  | transmit => exact sends (.inl rfl)
  | sendMessage => exact sends (.inr rfl)
  | getMessage =>
    replace h : execGetMessage s = .refused r := h
    unfold execGetMessage at h
    split at h <;> cases h
  | encode | scan | refresh | newMessage | listen | listenMessage => cases h

/-- A host's operation is refused only as the command it issues (R107). -/
theorem serveOp_refused {op : HostOp} {s : State} {r : Refusal} (h : serveOp op s = .refused r) :
    r = .deadlineOverflow ∧ s.WindowOverflows := by
  cases op with
  | wait => rw [serveOp_wait] at h; cases h
  | access a =>
    cases a with
    | read size off => cases h
    | write size off v =>
      replace h : portWrite size off v s = .refused r := h
      unfold portWrite at h
      split at h
      · obtain ⟨-, h'⟩ | ⟨i, -, -, -, h'⟩ := issue_cases v s <;> rw [h'] at h
        · cases h
        · exact exec_refused h
      · cases h
      · cases h

theorem hostTurn_refused {s : State} {r : Refusal} (h : hostTurn s = .refused r) :
    r = .deadlineOverflow ∧ s.WindowOverflows := by
  unfold hostTurn at h
  split at h
  · cases h
  · split at h <;> exact (serveOp_refused h :)

/-- The block's turn is refused only where the transport reports a byte it does not have (R19). -/
theorem blockTurn_refused {s : State} {r : Refusal} (h : blockTurn s = .refused r) :
    r = .rxNothingToRead ∧ s.env.rxQueue = [] ∧ 0 < s.env.rxWaiting := by
  obtain ⟨-, h'⟩ | ⟨-, -, h'⟩ := blockTurn_cases s <;> rw [h'] at h
  · cases h
  · obtain ⟨-, -, h'⟩ | ⟨x, e, -, -, h'⟩ | ⟨hwaiting, hqueue, h'⟩ | ⟨-, -, h'⟩ := listenIteration_cases s <;>
      rw [h'] at h <;> cases h
    exact ⟨rfl, hqueue, hwaiting⟩

theorem envTurn_refused {m : EnvMove} {s : State} {r : Refusal} (h : envTurn m s = .refused r) :
    r = .resetInTransaction := by
  cases m <;> cases h
  rfl

/-- Taking a turn touches the schedule alone, of what a step's outcome depends on. -/
theorem takeTurn_agrees (s : State) : (takeTurn s).2.blk = s.blk ∧ s.env.Agrees (takeTurn s).2.env := by
  unfold takeTurn
  split <;> exact ⟨rfl, rfl, rfl, rfl, rfl, rfl, rfl, rfl⟩

theorem Env.Agrees.rxWaiting {e e' : Env} (h : e.Agrees e') : e'.rxWaiting = e.rxWaiting := by
  unfold Env.rxWaiting; rw [h.rxReport, h.rxQueue]

/-- Settles O60: a fault has no constructor, and a refusal is by the agent whose turn it is. -/
theorem stepsAreRefusedOnlyOutsideTheRules : Obligations.StepsAreRefusedOnlyOutsideTheRules := by
  refine fun s => ⟨nofun, fun r h => ?_⟩
  obtain ⟨hblk, henv⟩ := takeTurn_agrees s
  rw [← hblk, ← henv.now, ← henv.rxQueue, ← henv.rxWaiting]
  unfold step at h
  cases hturn : (takeTurn s).1 <;> rw [hturn] at h
  case host => exact .inl (hostTurn_refused h)
  case block => exact .inr (.inl (blockTurn_refused h))
  case env m => exact .inr (.inr (envTurn_refused h))

end Sys2Proof.Machine
end

section
/-! PROOFS. The Channel Session's commands that touch no token: the issue of the two listens (R97, R100), NEW_MESSAGE
(R92), and GET_MESSAGE, which returns a message once (R101, R102). -/

namespace Sys2Proof.Machine

/-! ## The issue of a listen -/

/-- Settles O39: the issue sets `fsm` alone, and `BUSY` reads it. -/
theorem listenCommandsOnlyStartTheLoop : Obligations.ListenCommandsOnlyStartTheLoop := fun s =>
  ⟨⟨_, rfl, rfl, rfl, readReg_status_bit0 (s.blk.setFsm .listen), rfl⟩,
    _, rfl, rfl, rfl, readReg_status_bit0 (s.blk.setFsm .listenMsg), rfl⟩

/-! ## NEW_MESSAGE -/

theorem exec_newMessage_of_pass {s : State} (h : s.blk.verdict = .pass) :
    exec .newMessage s = .next (s.setBlk ((s.blk.encodeResult .newMessage).setOutBuf s.blk.operandFrame)) :=
  congrArg (fun b => Host.Outcome.next (s.setBlk b)) (if_pos h)

theorem exec_newMessage_of_ne_pass {s : State} (h : s.blk.verdict ≠ .pass) :
    exec .newMessage s = .next (s.setBlk (s.blk.encodeResult .newMessage)) :=
  congrArg (fun b => Host.Outcome.next (s.setBlk b)) (if_neg h)

/-- Settles O34, by the verdict: the encode step writes the result, and the frame goes to `outbuf` on a pass. -/
theorem newMessageReplacesOrKeepsTheOutboundBuffer : Obligations.NewMessageReplacesOrKeepsTheOutboundBuffer := by
  refine ⟨decode_eq_ok_iff.2 rfl, fun s => ?_⟩
  by_cases hpass : s.blk.verdict = .pass
  · refine ⟨_, exec_newMessage_of_pass hpass, rfl, fun _ => ⟨?_, ?_⟩, fun v hv hne => absurd (hv.symm.trans hpass) hne⟩
    · exact congrArg (·.setOutBuf s.blk.operandFrame) (s.blk.onlyResult_encodeResult .newMessage)
    · exact Block.showsResult_encodeResult_of_pass hpass .newMessage
  · refine ⟨_, exec_newMessage_of_ne_pass hpass, rfl, fun h => absurd h hpass, ?_⟩
    rintro v rfl -
    have hcode : 0x00060100 + 16 * s.blk.verdict.code.toNat =
        16 * s.blk.verdict.code.toNat + 256 + 65536 * (opcode .newMessage).toNat := by
      rw [show (opcode .newMessage).toNat = 6 from rfl]; omega
    exact ⟨s.blk.onlyResult_encodeResult .newMessage,
      hcode ▸ Block.showsResult_encodeResult_of_ne_pass hpass .newMessage⟩

/-! ## GET_MESSAGE -/

/-- What a written result shows, field by field (R33, R34). -/
theorem Block.showsResult_result (b : Block) (i : Instr) (ok : Bool) (val : Verdict) (cause : Cause) (id : Byte)
    (buf : List Byte) : (b.result i ok val cause id buf).ShowsResult
      (ok.toNat + 16 * val.code.toNat + 256 * cause.code.toNat + 65536 * (opcode i).toNat) id buf :=
  Block.showsResult_of_res rfl rfl

theorem exec_getMessage_eq_of_lastId_eq {s : State} (h : s.blk.lastId = 0x00#8) :
    exec .getMessage s = .next (s.setBlk (s.blk.result .getMessage false .pass .noMessage 0x00#8 [])) := if_pos h

theorem exec_getMessage_eq_of_lastId_ne {s : State} (h : s.blk.lastId ≠ 0x00#8) :
    exec .getMessage s = .next (s.setBlk
      ((s.blk.result .getMessage true .pass .none s.blk.lastId s.blk.lastPl).setLast 0x00#8 [])) := if_neg h

/-- Settles O43, by whether a message is stored. -/
theorem getMessageConsumesTheLastMessage : Obligations.GetMessageConsumesTheLastMessage := by
  refine ⟨decode_eq_ok_iff.2 rfl, fun s => ?_⟩
  by_cases hid : s.blk.lastId = 0x00#8
  · exact ⟨_, exec_getMessage_eq_of_lastId_eq hid, rfl,
      fun _ => ⟨rfl, s.blk.showsResult_result .getMessage false .pass .noMessage 0x00#8 []⟩, absurd hid⟩
  · exact ⟨_, exec_getMessage_eq_of_lastId_ne hid, rfl, fun h => absurd h hid,
      fun _ => ⟨rfl, s.blk.showsResult_result .getMessage true .pass .none s.blk.lastId s.blk.lastPl⟩⟩

theorem Block.OnlyResult.sameLast {b c : Block} (h : b.OnlyResult c) : b.SameLast c :=
  ⟨congrArg (·.lastId) (show c = _ from h), congrArg (·.lastPl) (show c = _ from h)⟩

/-- Settles O44: the first GET_MESSAGE leaves id 0, at which the second reports none and changes the result alone. -/
theorem aMessageIsReturnedOnce : Obligations.AMessageIsReturnedOnce := by
  obtain ⟨-, hget⟩ := getMessageConsumesTheLastMessage
  intro s hne
  obtain ⟨t, hexec, -, -, hmessage⟩ := hget s
  obtain ⟨hleft, hshow⟩ := hmessage hne
  refine ⟨t, hexec, hshow, fun u hlast => ?_⟩
  obtain ⟨v, hexec', -, hnone, -⟩ := hget u
  obtain ⟨honly, hshow'⟩ := hnone (hlast.1.trans hleft.sameLast.1)
  exact ⟨v, hexec', hshow', honly.sameLast⟩

end Sys2Proof.Machine
end

section
/-! PROOFS. The two sends (R93 to R96): `transmit_fn` by its conditions, the outcomes of a send attempt, and which bytes
TRANSMIT and SEND_MESSAGE attempt to send. -/

namespace Sys2Proof.Machine

/-! ## The send attempt -/

/-- A `TxWrite` is recorded whole and puts a prefix on the wire (R19). -/
theorem Env.wrote_txWrite (e : Env) (seq : List Byte) : e.Wrote seq (e.txWrite seq).2 :=
  ⟨rfl, onWire e.txReply seq, onWire_prefix _ _, rfl, fun hall => by unfold onWire; rw [hall]⟩

section
variable {d : Int} {t : Timestamp} {s : State}

theorem transmitFn_of_not_heldAt (hopen : ¬ s.blk.HeldAt t) :
    transmitFn d t s = some (⟨false, .denied, []⟩, ⟨s.blk.setOutBuf [], s.env⟩) := by
  unfold transmitFn
  rw [Block.refreshFn_of_not_heldAt hopen]
  exact if_neg fun hheld => hopen (.inl hheld)

theorem transmitFn_of_fault (hheld : s.blk.HeldAt t) (hfault : s.env.txReply.ok = false) :
    transmitFn d t s = some (⟨false, .txFault, []⟩,
      ⟨((s.blk.setToken true s.blk.tokDl).setFatal true).setOutBuf [], (s.env.txWrite s.blk.outBuf).2⟩) := by
  unfold transmitFn
  simp only [Block.refreshFn_of_heldAt hheld, Block.setToken_tokHeld, Block.setToken_outBuf, if_true, Env.txWrite_eq,
    hfault]

theorem transmitFn_of_releaseFn {c : Block} (hheld : s.blk.HeldAt t) (hok : s.env.txReply.ok = true)
    (hrel : (s.blk.setToken true s.blk.tokDl).releaseFn d t = some c) :
    transmitFn d t s = some (⟨true, .none, s.blk.outBuf⟩, ⟨c.setOutBuf [], (s.env.txWrite s.blk.outBuf).2⟩) := by
  unfold transmitFn
  simp only [Block.refreshFn_of_heldAt hheld, Block.setToken_tokHeld, Block.setToken_outBuf, if_true, Env.txWrite_eq,
    hok, hrel]

/-- A send attempt writes the result of its `transmit_fn` and nothing else (R94, R95). -/
theorem exists_sendAttempt_eq {out : SendOut} {s' : State} (h : transmitFn d t s = some (out, s')) (i : Instr)
    (val : Verdict) (id : Byte) :
    ∃ u, sendAttempt i val id d t s = .next u ∧ u.env = s'.env ∧
      u.blk.ShowsResult (65536 * (opcode i).toNat + 16 * val.code.toNat + (out.ok.toNat + 256 * out.cause.code.toNat))
        id out.buf ∧ s'.blk.OnlyResult u.blk := by
  unfold sendAttempt
  rw [h]
  have hcode : 65536 * (opcode i).toNat + 16 * val.code.toNat + (out.ok.toNat + 256 * out.cause.code.toNat) =
      out.ok.toNat + 16 * val.code.toNat + 256 * out.cause.code.toNat + 65536 * (opcode i).toNat := by omega
  exact ⟨_, rfl, rfl, hcode ▸ s'.blk.showsResult_result i out.ok val out.cause id out.buf, rfl⟩

end

/-- The outcomes of an attempt to send `seq` with the window of `ARG_WIN` (R93). -/
theorem sendOutcomes_sendAttempt (i : Instr) (val : Verdict) (id : Byte) (seq : List Byte) (s : State) :
    SendOutcomes s seq (65536 * (opcode i).toNat + 16 * val.code.toNat) id
      (sendAttempt i val id s.blk.winOp s.env.now (s.setBlk (s.blk.setOutBuf seq))) := by
  refine ⟨fun hopen => ?_, fun hheld hfault => ?_, fun hheld hok hwin => ?_, fun hheld hok hwin hfits => ?_⟩
  · exact exists_sendAttempt_eq (transmitFn_of_not_heldAt (s := s.setBlk (s.blk.setOutBuf seq)) hopen) i val id
  · obtain ⟨u, hsend, henv, hshow, honly⟩ := exists_sendAttempt_eq
      (transmitFn_of_fault (d := s.blk.winOp) (s := s.setBlk (s.blk.setOutBuf seq)) hheld hfault) i val id
    exact ⟨u, hsend, henv ▸ s.env.wrote_txWrite seq, hshow, honly⟩
  · obtain ⟨u, hsend, henv, hshow, honly⟩ := exists_sendAttempt_eq
      (transmitFn_of_releaseFn (s := s.setBlk (s.blk.setOutBuf seq)) hheld hok (Block.releaseFn_of_nonpos hwin _ _))
      i val id
    exact ⟨u, hsend, henv ▸ s.env.wrote_txWrite seq, hshow, honly⟩
  · obtain ⟨dl, hdl, hrel⟩ := Block.exists_releaseFn_of_fits hwin hfits
      ((s.blk.setOutBuf seq).setToken true s.blk.tokDl)
    obtain ⟨u, hsend, henv, hshow, honly⟩ := exists_sendAttempt_eq
      (transmitFn_of_releaseFn (s := s.setBlk (s.blk.setOutBuf seq)) hheld hok hrel) i val id
    obtain rfl : u.blk.tokDl = dl := congrArg Block.tokDl honly
    exact ⟨u, hsend, henv ▸ s.env.wrote_txWrite seq, hshow, hdl, honly⟩

/-! ## TRANSMIT and SEND_MESSAGE -/

/-- Settles O35: TRANSMIT attempts to send what `outbuf` holds. -/
theorem transmitSendsTheOutboundBufferWhileHeld : Obligations.TransmitSendsTheOutboundBufferWhileHeld :=
  ⟨decode_eq_ok_iff.2 rfl, fun s => sendOutcomes_sendAttempt .transmit .pass 0x00#8 s.blk.outBuf s⟩

theorem exec_sendMessage_of_pass {s : State} (h : s.blk.verdict = .pass) :
    exec .sendMessage s = sendAttempt .sendMessage .pass (operandByte s.blk.idOp) s.blk.winOp s.env.now
      (s.setBlk (s.blk.setOutBuf s.blk.operandFrame)) := if_pos h

theorem exec_sendMessage_of_ne_pass {s : State} (h : s.blk.verdict ≠ .pass) :
    exec .sendMessage s = sendAttempt .sendMessage s.blk.verdict 0x00#8 s.blk.winOp s.env.now s := if_neg h

/-- Settles O36, by the verdict: SEND_MESSAGE attempts to send the operand frame, or what `outbuf` holds. -/
theorem sendMessageSendsTheFrameOrTheStaleBuffer : Obligations.SendMessageSendsTheFrameOrTheStaleBuffer := by
  refine ⟨decode_eq_ok_iff.2 rfl, fun s => ⟨fun hpass => ?_, ?_⟩⟩
  · rw [exec_sendMessage_of_pass hpass]
    exact sendOutcomes_sendAttempt .sendMessage .pass (operandByte s.blk.idOp) s.blk.operandFrame s
  · rintro v rfl hne
    rw [exec_sendMessage_of_ne_pass hne]
    exact sendOutcomes_sendAttempt .sendMessage s.blk.verdict 0x00#8 s.blk.outBuf s

end Sys2Proof.Machine
end

section
/-! PROOFS. The listen loop (R97 to R100): an iteration by its conditions, when it completes the loop, what LISTEN and
LISTEN_MESSAGE leave, and a LISTEN over a waiting queue. -/

namespace Sys2Proof.Machine

/-! ## Iterations -/

section
variable {s : State}

/-- An iteration with the token held and nothing waiting completes the loop (R98). -/
theorem listenIteration_of_quiet (hheld : s.blk.HeldAt s.env.now) (hquiet : s.env.rxWaiting = 0) :
    listenIteration s = .next (s.setBlk (s.blk.setToken true s.blk.tokDl).listenComplete) := by
  unfold listenIteration
  rw [Block.refreshFn_of_heldAt hheld]
  exact if_pos ⟨rfl, hquiet⟩

/-- An iteration with a byte waiting refreshes the token and reads the byte (R98). -/
theorem exists_listenIteration_of_waiting {x : Byte} {rest : List Byte} (hwaiting : 0 < s.env.rxWaiting)
    (hqueue : s.env.rxQueue = x :: rest) :
    ∃ held, (held = true ↔ s.blk.HeldAt s.env.now) ∧ listenIteration s =
      .next ⟨(s.blk.setToken held s.blk.tokDl).drain x, { s.env with rxQueue := rest }⟩ := by
  have hread : s.env.rxRead = some (x, { s.env with rxQueue := rest }) := Env.rxRead_eq_some.2 ⟨hqueue, rfl⟩
  refine ⟨_, s.blk.refreshFn_tokHeld s.env.now, ?_⟩
  rw [← Block.refreshFn_eq_setToken]
  unfold listenIteration
  rw [hread]
  exact (if_neg fun h => hwaiting.ne' h.2).trans (if_pos hwaiting)

/-- An iteration with the token released and nothing waiting changes nothing (R98). -/
theorem listenIteration_of_not_heldAt (hopen : ¬ s.blk.HeldAt s.env.now) (hquiet : s.env.rxWaiting = 0) :
    listenIteration s = .next s := by
  unfold listenIteration
  rw [Block.refreshFn_of_not_heldAt hopen, hquiet]
  exact if_neg fun h => hopen (.inl h.1)

end

/-- A block's turn of a running loop is an iteration, from the state with the turn taken (R98). -/
theorem exists_step_eq_listenIteration {s s' : State} (hturn : TurnNext s .block s')
    (hreset : s.env.resetAsserted = false) (hrun : s.blk.fsm ≠ .idle) :
    ∃ ts, s' = s.withTurns ts ∧ step s = listenIteration (s.withTurns ts) := by
  refine ⟨s'.env.turns, hturn.rest, ?_⟩
  rw [step_of_turn hturn, hturn.rest]
  exact if_neg (not_or.2 ⟨Bool.eq_false_iff.1 hreset, hrun⟩)

theorem Block.listenComplete_of_listen {b : Block} (h : b.fsm = .listen) :
    b.listenComplete = (b.result .listen true .pass .none 0x00#8 b.inBuf).setFsm .idle := by
  unfold Block.listenComplete; rw [h]

theorem Block.listenComplete_of_listenMsg {b : Block} (h : b.fsm = .listenMsg) :
    b.listenComplete = b.listenMessageComplete.setFsm .idle := by
  unfold Block.listenComplete; rw [h]

/-- Settles O40: a completion by the command that runs, a byte by the room in `inbuf`, and the spin. -/
theorem listenIterationRefreshesThenCompletesReadsOrSpins :
    Obligations.ListenIterationRefreshesThenCompletesReadsOrSpins := by
  intro s s' hturn hreset hrun
  obtain ⟨ts, rfl, hstep⟩ := exists_step_eq_listenIteration hturn hreset hrun
  have completes (hheld : s.blk.HeldAt s.env.now) (hquiet : s.env.rxWaiting = 0) :
      step s = .next ((s.withTurns ts).setBlk (s.blk.setToken true s.blk.tokDl).listenComplete) :=
    hstep.trans (listenIteration_of_quiet (s := s.withTurns ts) hheld hquiet)
  refine ⟨fun hheld hquiet hfsm => ?_, fun hheld hquiet hfsm => ?_, fun x rest hwaiting hqueue => ?_,
    fun hopen hquiet => hstep.trans (listenIteration_of_not_heldAt (s := s.withTurns ts) hopen hquiet)⟩
  · rw [completes hheld hquiet, Block.listenComplete_of_listen (b := s.blk.setToken true s.blk.tokDl) hfsm]
    exact ⟨_, rfl, rfl,
      (s.blk.setToken true s.blk.tokDl).showsResult_result .listen true .pass .none 0x00#8 s.blk.inBuf, rfl⟩
  · rw [completes hheld hquiet, Block.listenComplete_of_listenMsg (b := s.blk.setToken true s.blk.tokDl) hfsm]
  · obtain ⟨held, hheld, hread⟩ := exists_listenIteration_of_waiting (s := s.withTurns ts) hwaiting hqueue
    obtain ⟨hroom, hdrain⟩ | ⟨hfull, hdrain⟩ := (s.blk.setToken held s.blk.tokDl).drain_cases x <;>
      replace hread := hstep.trans (hdrain ▸ hread)
    · exact ⟨_, hread, rfl, hheld, fun _ => rfl, fun hfull => absurd hroom (Nat.not_lt_of_le hfull)⟩
    · exact ⟨_, hread, rfl, hheld, fun hroom => absurd hroom (Nat.not_lt_of_le hfull), fun _ => rfl⟩

/-! ## Completion -/

theorem Block.listenComplete_fsm (b : Block) : b.listenComplete.fsm = .idle := by
  unfold Block.listenComplete
  cases hfsm : b.fsm
  case idle => exact hfsm
  case listen => rfl
  case listenMsg => rfl

/-- Draining a byte leaves the control state, the token and the result (R98). -/
theorem Block.drain_leaves (b : Block) (x : Byte) :
    (b.drain x).fsm = b.fsm ∧ (b.drain x).tokHeld = b.tokHeld ∧ (b.drain x).res = b.res := by
  obtain ⟨-, h⟩ | ⟨-, h⟩ := b.drain_cases x <;> rw [h] <;> exact ⟨rfl, rfl, rfl⟩

theorem Block.refreshFn_res (b : Block) (t : Timestamp) : (b.refreshFn t).res = b.res := by
  rw [b.refreshFn_eq_setToken t]; rfl

/-- An iteration completes the loop where the token is held after the refresh and nothing waits. Elsewhere the loop goes
on, with the token refreshed and the result kept (R98, R99). -/
theorem listenIteration_completes_or_goesOn {s t : State} (h : listenIteration s = .next t) :
    ((s.blk.HeldAt s.env.now ∧ s.env.rxWaiting = 0) ∧ t.blk.fsm = .idle) ∨
      (¬ (s.blk.HeldAt s.env.now ∧ s.env.rxWaiting = 0) ∧ t.blk.fsm = s.blk.fsm ∧
        t.blk.tokHeld = (s.blk.refreshFn s.env.now).tokHeld ∧ t.blk.res = s.blk.res) := by
  rw [Block.HeldAt, ← Block.refreshFn_tokHeld]
  obtain ⟨hheld, hquiet, h'⟩ | ⟨x, e, hwaiting, -, h'⟩ | ⟨-, -, h'⟩ | ⟨hopen, -, h'⟩ := listenIteration_cases s <;>
    rw [h'] at h <;> cases h
  · exact .inl ⟨⟨hheld, hquiet⟩, Block.listenComplete_fsm _⟩
  · obtain ⟨hfsm, hheld, hres⟩ := (s.blk.refreshFn s.env.now).drain_leaves x
    exact .inr ⟨fun hdone => hwaiting.ne' hdone.2, hfsm.trans (Block.refreshFn_fsm _ _), hheld,
      hres.trans (Block.refreshFn_res _ _)⟩
  · exact .inr ⟨fun hdone => Bool.eq_false_iff.1 hopen hdone.1, Block.refreshFn_fsm _ _, rfl, Block.refreshFn_res _ _⟩

/-- Settles O41, by whether the iteration completes the loop. -/
theorem listenCompletesExactlyWhenHeldAndQuiet : Obligations.ListenCompletesExactlyWhenHeldAndQuiet := by
  intro s s' t hturn hreset hrun hstep
  obtain ⟨ts, -, hiter⟩ := exists_step_eq_listenIteration hturn hreset hrun
  rw [hiter] at hstep
  obtain ⟨hdone, hidle⟩ | ⟨hnot, hfsm, hheld, hres⟩ := listenIteration_completes_or_goesOn hstep
  · exact ⟨iff_of_true hidle hdone, fun hrel hle => absurd hdone.1 (Block.not_heldAt_of_le hrel hle)⟩
  · refine ⟨iff_of_false (hfsm ▸ hrun) hnot, fun hrel hle => ⟨hfsm, ?_, hres⟩⟩
    rw [hheld]
    exact (congrArg (·.tokHeld) (Block.refreshFn_of_not_heldAt (Block.not_heldAt_of_le hrel hle))).trans hrel

/-! ## LISTEN_MESSAGE -/

theorem Block.listenMessageComplete_of_frame {b : Block} {id : Byte} {p : List Byte}
    (h : scanFn b.inBuf = .frame id p) :
    b.listenMessageComplete = ((b.scanResult .listenMessage (.frame id p)).setLast id p).setInBuf [] := by
  unfold Block.listenMessageComplete; rw [h]

theorem Block.listenMessageComplete_of_incomplete {b : Block} (h : scanFn b.inBuf = .incomplete) :
    b.listenMessageComplete = (b.scanResult .listenMessage .incomplete).setInBuf [] := by
  unfold Block.listenMessageComplete; rw [h]

/-- Settles O42: the completing iteration by what the scan of `inbuf` finds. -/
theorem listenMessageStoresTheFrameFound : Obligations.ListenMessageStoresTheFrameFound := by
  refine ⟨decode_eq_ok_iff.2 rfl, fun s => rfl, fun s s' hturn hreset hfsm hheld hquiet => ?_⟩
  have hrun : s.blk.fsm ≠ .idle := by rw [hfsm]; decide
  obtain ⟨-, hcompletes, -⟩ := listenIterationRefreshesThenCompletesReadsOrSpins s s' hturn hreset hrun
  refine ⟨_, hcompletes hheld hquiet hfsm, rfl, fun id p hscan => ?_, fun hscan => ?_⟩
  · rw [Block.listenMessageComplete_of_frame (b := s.blk.setToken true s.blk.tokDl) hscan]
    exact ⟨(s.blk.setToken true s.blk.tokDl).showsResult_scanResult_frame .listenMessage id p, rfl⟩
  · rw [Block.listenMessageComplete_of_incomplete (b := s.blk.setToken true s.blk.tokDl) hscan]
    exact ⟨(s.blk.setToken true s.blk.tokDl).showsResult_scanResult_incomplete .listenMessage, rfl⟩

/-! ## LISTEN -/

/-- Settles O46: the loop drains the queue, and its last step copies `inbuf` to the result. -/
theorem listenDrainsTheQueueAndCompletes : Obligations.ListenDrainsTheQueueAndCompletes := by
  intro s ts hfsm hheld hreset hhonest hfits hturns
  have hlistens : s.ListensHolding := ⟨by rw [hfsm]; decide, hheld, hreset, hhonest⟩
  have hread : (s.afterReading s.env.rxQueue [] ts).blk.fsm = .listen := hfsm
  rw [runSteps_drain_completes hlistens rfl hfits hturns, Block.listenComplete_of_listen hread]
  exact ⟨_, rfl, rfl,
    (s.afterReading s.env.rxQueue [] ts).blk.showsResult_result .listen true .pass .none 0x00#8 _, rfl⟩

end Sys2Proof.Machine
end

section
/-! PROOFS. The command gate at a step (R107), and the fault of a send, which closes it (R106). -/

namespace Sys2Proof.Machine

/-! ## The gate -/

/-- The command gate rejects under each of R107 (a), (b) and (c). -/
theorem issue_of_rejected {w : Word} {s : State}
    (h : s.blk.fatal = true ∨ s.blk.fsm ≠ .idle ∨ ∀ i, decode w ≠ .ok i) :
    issue w s = .next (s.setBlk s.blk.reject) := by
  obtain ⟨-, hrejects⟩ | ⟨i, hopen, hidle, hdecode, -⟩ := issue_cases w s
  · exact hrejects
  · obtain hfatal | hbusy | hillegal := h
    · rw [hopen] at hfatal; cases hfatal
    · exact absurd hidle hbusy
    · exact absurd hdecode (hillegal i)

/-- Settles O6: the step is the gate's answer, at the block the host's turn leaves alone. -/
theorem commandWriteRejectedOrExecuted : Obligations.CommandWriteRejectedOrExecuted := by
  intro s s' w h
  rw [step_of_cmdWrite h, ← HostNext.blk_eq h]
  exact ⟨issue_of_rejected, fun hfatal hidle i hdecode => issue_of_decode hdecode hfatal hidle⟩

/-! ## The fault of a send -/

theorem sendAttempt_of_transmitFn_eq_some {d : Int} {t : Timestamp} {s s' : State} {out : SendOut}
    (h : transmitFn d t s = some (out, s')) (i : Instr) (val : Verdict) (id : Byte) :
    sendAttempt i val id d t s = .next (s'.setBlk (s'.blk.result i out.ok val out.cause id out.buf)) := by
  unfold sendAttempt; rw [h]

/-- Settles O38: both sends fault in `transmit_fn`, before its release, and FATAL is R107 (a). -/
theorem transportFaultIsFatal : Obligations.TransportFaultIsFatal := by
  refine ⟨fun s i hi hheld hfault => ?_, fun s s' w h hfatal => ?_⟩
  · obtain ⟨val, id, seq, hexec⟩ := exec_eq_sendAttempt hi s
    rw [hexec, sendAttempt_of_transmitFn_eq_some
      (transmitFn_of_fault (s := s.setBlk (s.blk.setOutBuf seq)) hheld hfault)]
    exact ⟨_, rfl, rfl, rfl, rfl, rfl, rfl, rfl, rfl⟩
  · obtain ⟨hrejects, -⟩ := commandWriteRejectedOrExecuted s s' w h
    exact hrejects (.inl hfatal)

end Sys2Proof.Machine
end

section
/-! PROOFS. The first send after reset (R122). -/

namespace Sys2Proof.Machine

/-- R39's operand values are id 0, window 0 and no payload. -/
theorem Block.reset_operands : Block.reset.idOp = 0 ∧ Block.reset.winOp = 0 ∧ Block.reset.plOp = [] :=
  ⟨rfl, rfl, rfl⟩

theorem Block.reset_verdict : Block.reset.verdict = .pass := by
  obtain ⟨hid, hwin, hpl⟩ := Block.reset_operands
  rw [Block.verdict, hid, hwin, hpl]
  decide

/-- The frame of the reserved id 0 (R71) is the two markers around a zero byte. -/
theorem Block.reset_operandFrame :
    Block.reset.operandFrame = [0xFF#8, 0xFF#8, 0xFF#8, 0x00#8, 0xFE#8, 0xFE#8, 0xFE#8] := by
  obtain ⟨hid, hwin, hpl⟩ := Block.reset_operands
  rw [Block.operandFrame, hid, hwin, hpl]
  decide

/-- Settles O50: the operands pass, the token is held, and the window of 0 releases nothing. -/
theorem firstSendAfterResetIsTheIdZeroFrame : Obligations.FirstSendAfterResetIsTheIdZeroFrame := by
  obtain ⟨-, hwin, -⟩ := Block.reset_operands
  have hsend := transmitFn_of_releaseFn (t := State.reset.env.now)
    (s := State.reset.setBlk (Block.reset.setOutBuf Block.reset.operandFrame)) (.inl rfl) rfl
    (Block.releaseFn_of_nonpos hwin.le _ _)
  have hexec := (exec_sendMessage_of_pass (s := State.reset) Block.reset_verdict).trans
    (sendAttempt_of_transmitFn_eq_some hsend .sendMessage .pass (operandByte Block.reset.idOp))
  exact ⟨_, hexec, congrArg (fun seq => [seq]) Block.reset_operandFrame, rfl, rfl, rfl⟩

end Sys2Proof.Machine
end
